-- ==== Sys2Proof/Word.lean ====
section
/-! DEFINITION. The fixed widths of the block (00_scope.md R8): bytes on both wires, 16-bit wire fields and 32-bit
results. The two widths that are parameters (R7: `TIME_WIDTH`, `CNT_WIDTH`) are fields of `Config`. -/

namespace Sys2Proof

/-- A byte on either wire, a host operand `b` (R8). -/
abbrev Byte := BitVec 8

/-- A 16-bit wire field, a host operand `a` (R8). -/
abbrev Half := BitVec 16

/-- The `data` of a result, 32 bits (R8). -/
abbrev Word := BitVec 32

/-- A SmartAudio request's command id, bits 7..1 of its command byte (30_encoding.md R75). -/
abbrev CmdId := BitVec 7

end Sys2Proof
end

