-- ==== Sys2Proof/Config.lean ====
section
/-! DEFINITION. The parameters of the block (00_scope.md R7). Values the source gives are definitions here; values the
spec calls "decided" are fields of `Config`, the named configuration argument that R7 asks for. The defaults stand in
Machine/Params.lean (`standardConfig`). -/

namespace Sys2Proof

/-- The two protocols of the block, `PROTO_SEL` and `S.proto` (R2, R24, R26). -/
inductive Proto where
  | sa
  | tramp
deriving DecidableEq, Repr

/-- The negotiated SmartAudio version (10_state.md R30); `v21` is version 2.1. -/
inductive SaVersion where
  | unknown
  | v1
  | v2
  | v21
deriving DecidableEq, Repr

/-- One entry of the table `SA_POWER_MAP` (43_sa_engine.md R129): at `version`, `mw` milliwatts is the byte `level`. -/
structure PowerEntry where
  version : SaVersion
  mw : Half
  level : Byte
deriving DecidableEq, Repr

/-- The decided parameters (R7, 93_implementation_defined.md U13), the frequency table (40_freq_table.md R87) and the
construction input `PROTO_SEL` (10_state.md R24). DESIGN CHOICE, safe (log 11): carried in the state as plain data
that no step writes, so that a statement about every state is one about every value of the parameters. -/
structure Config where
  /-- `PROTO_SEL` -/
  protoSel : Proto
  /-- `SA_MAX_PAYLOAD`, bytes -/
  saMaxPayload : Nat
  /-- `SA_CMD_TIMEOUT_MS` -/
  saCmdTimeoutMs : Nat
  /-- `SA_POLL_INTERVAL_MS` -/
  saPollIntervalMs : Nat
  /-- `SA_PIT_FLAG` -/
  saPitFlag : Half
  /-- `SA_POWER_MAP` -/
  saPowerMap : List PowerEntry
  /-- `TRAMP_INIT_PERIOD_MS` -/
  trInitPeriodMs : Nat
  /-- `TRAMP_RACE_LOCK_MASK` -/
  trRaceLockMask : Byte
  /-- `TRAMP_PIT_ACTIVE` -/
  trPitActive : Half
  /-- `TRAMP_PIT_INACTIVE` -/
  trPitInactive : Half
  /-- `TIME_WIDTH`, bits of the time input and of every time stamp -/
  timeWidth : Nat
  /-- `CNT_WIDTH`, bits of every diagnostic counter -/
  cntWidth : Nat
  /-- `FT`: five bands of eight channels, MHz (R87) -/
  freqTable : Vector (Vector Half 8) 5
deriving DecidableEq, Repr

/-- What the rules presuppose of the parameters: the length byte can hold `SA_MAX_PAYLOAD`, the longest payload the
block itself sends (2 bytes, 30_encoding.md R76) fits, the two `'I'` parameters differ, and a counter fits the 32-bit
register that shows it (10_state.md R46). DEDUCED, safe (log 12). -/
abbrev Config.Valid (c : Config) : Prop :=
  2 ≤ c.saMaxPayload ∧ c.saMaxPayload ≤ 255 ∧ c.trPitActive ≠ c.trPitInactive ∧ c.cntWidth ≤ 32

/-- A free value: what a frame unit's request port gives for bytes that are no request of the block. No rule says, so
nothing constrains it. DESIGN CHOICE, safe (log 6). -/
opaque Config.unstatedFrame : List Byte → Option (List Byte)

/-- `SA_QUEUE_CAP` (R7, source). -/
def saQueueCap : Nat := 4

/-- `TRAMP_FRAME_LEN` (R7, source). -/
def trFrameLen : Nat := 16

/-- `TRAMP_MIN_PERIOD_MS` (R7, source). -/
def trMinPeriodMs : Nat := 200

/-- `TRAMP_STATUS_PERIOD_MS` (R7, source). -/
def trStatusPeriodMs : Nat := 1000

/-- `TRAMP_MAX_RETRY` (R7, source). -/
def trMaxRetry : Nat := 20

/-- `FREQ_MIN` (R7, source). -/
def freqMin : Nat := 5000

/-- `FREQ_MAX` (R7, source). -/
def freqMax : Nat := 5999

/-- `SA_BAUD` and its framing: 8 data bits, 2 stop bits (R7, source). -/
def saBaud : Nat := 4800

/-- `TRAMP_BAUD` and its framing: 8 data bits, 1 stop bit (R7, source). -/
def trBaud : Nat := 9600

end Sys2Proof
end

