-- ==== Sys2Proof/Machine/Operands.lean ====
section
/-! DEFINITION. Operand assembly (30_encoding.md R73), byte order (20_memory.md R54, R55) and time comparison
(00_scope.md R15). -/

namespace Sys2Proof.Machine

/-- `v[7:0]` of a 16-bit value (R9). -/
def loByte (v : Half) : Byte := v.extractLsb' 0 8

/-- `v[15:8]` of a 16-bit value (R9). -/
def hiByte (v : Half) : Byte := v.extractLsb' 8 8

/-- `u16le(lo, hi)` (R10): TRAMP's order (R55). -/
def u16le (lo hi : Byte) : Half := hi ++ lo

/-- `u16be(hi, lo)` (R10): SmartAudio's order (R54). -/
def u16be (hi lo : Byte) : Half := hi ++ lo

/-- `zext_32` of a byte, a half or a bit (R10). -/
def zext (v : BitVec n) : Word := v.setWidth 32

/-- A flag as a 32-bit value, 0 or 1 (10_state.md R46). -/
def flagWord (b : Bool) : Word := if b then 1 else 0

/-- `b[0]` of the operand `b` as a boolean; `b[7:1]` is ignored (R73). -/
def operandFlag (b : Byte) : Bool := b.getLsbD 0

/-- `a[7:0]` of the operand `a`, a band number; `a[15:8]` is ignored (R73). -/
def operandBand (a : Half) : Byte := loByte a

/-- The protocol that `b[0]` of SWITCH_PROTOCOL names: 1 is TRAMP (46_host_ops.md R159). -/
def operandProto (b : Byte) : Proto := if operandFlag b then .tramp else .sa

/-- `a +_w b`: addition modulo `2^w` (R10). Numbers of a width that is a parameter are naturals below `2^w`, narrowed
here (log 13). -/
def addMod (w a b : Nat) : Nat := (a + b) % 2 ^ w

/-- `a -_w b`: subtraction modulo `2^w` (R10). -/
def subMod (w a b : Nat) : Nat := (a + (2 ^ w - b % 2 ^ w)) % 2 ^ w

/-- The value the time input has on its `TIME_WIDTH` wires (R15, 10_state.md R23). -/
def timeInput (c : Config) (ms : Nat) : Nat := ms % 2 ^ c.timeWidth

/-- `elapsed(t) = now -_TIME_WIDTH t` (R15), right across wraparound (70_reset_and_hazards.md R191). -/
def elapsed (c : Config) (now t : Nat) : Nat := subMod c.timeWidth now t

/-- `due(t, P)`: `t = never` or `elapsed(t) ≥ P` (R15). -/
def due (c : Config) (now : Nat) (t : Option Nat) (period : Nat) : Bool :=
  match t with
  | none => true
  | some t => decide (period ≤ elapsed c now t)

/-- `1 ≤ band ≤ 5` and `1 ≤ channel ≤ 8` (R88, 43_sa_engine.md R132). -/
def bandChannelInRange (band channel : Byte) : Bool :=
  decide (1 ≤ band.toNat ∧ band.toNat ≤ 5 ∧ 1 ≤ channel.toNat ∧ channel.toNat ≤ 8)

/-- The frequency is one the setters accept (43_sa_engine.md R128, 45_tramp_engine.md R150). -/
def freqInRange (f : Half) : Bool := decide (freqMin ≤ f.toNat ∧ f.toNat ≤ freqMax)

end Sys2Proof.Machine
end

