-- ==== Sys2Proof/Machine/Params.lean ====
section
/-! DEFINITION. The default parameters (00_scope.md R7), the default power map (43_sa_engine.md R129) and the frequency
table (40_freq_table.md R87). -/

namespace Sys2Proof.Machine

/-- The power levels of versions None and V1 (R129). PRESUMED, unsafe (log 14): the spec has them from general
knowledge (93_implementation_defined.md I6). -/
def powerLevelsV1 : List (Half × Byte) := [(25, 7), (200, 16), (500, 25), (800, 40)]

/-- The power indices of versions V2 and V21 (R129). PRESUMED, unsafe (log 14), as above. -/
def powerLevelsV2 : List (Half × Byte) := [(25, 0), (200, 1), (500, 2), (800, 3)]

/-- One version's column of the power map as entries. -/
def powerEntries (v : SaVersion) (levels : List (Half × Byte)) : List PowerEntry :=
  levels.map fun l => ⟨v, l.1, l.2⟩

/-- The default `SA_POWER_MAP` (R129). -/
def standardPowerMap : List PowerEntry :=
  powerEntries .unknown powerLevelsV1 ++ powerEntries .v1 powerLevelsV1 ++
  powerEntries .v2 powerLevelsV2 ++ powerEntries .v21 powerLevelsV2

/-- `FT` (R87), bands A, B, E, F, R. PRESUMED, unsafe (log 14): only the entry of band 5, channel 3 is the source's
(93_implementation_defined.md I1). -/
def standardFreqTable : Vector (Vector Half 8) 5 :=
  #v[#v[5865, 5845, 5825, 5805, 5785, 5765, 5745, 5725],
     #v[5733, 5752, 5771, 5790, 5809, 5828, 5847, 5866],
     #v[5705, 5685, 5665, 5645, 5885, 5905, 5925, 5945],
     #v[5740, 5760, 5780, 5800, 5820, 5840, 5860, 5880],
     #v[5658, 5695, 5732, 5769, 5806, 5843, 5880, 5917]]

/-- The defaults of R7. `protoSel` is a construction input to which the spec gives no default: DESIGN CHOICE, unsafe
(log 1). The other values are the spec's decided defaults, several of them from general knowledge (log 11, log 14). -/
def standardConfig : Config where
  protoSel := .sa
  saMaxPayload := 16
  saCmdTimeoutMs := 120
  saPollIntervalMs := 150
  saPitFlag := 0x8000
  saPowerMap := standardPowerMap
  trInitPeriodMs := 1000
  trRaceLockMask := 0x01
  trPitActive := 1
  trPitInactive := 0
  timeWidth := 32
  cntWidth := 32
  freqTable := standardFreqTable

end Sys2Proof.Machine
end

