-- ==== Sys2Proof/Syntax.lean ====
section
/-! DEFINITION. The block's encoded forms (30_encoding.md R70, R74, R81) and the instructions they stand for: one
constructor of `Instr` for each row of spec/opcode_table.json. -/

namespace Sys2Proof

/-- What a step is given: the host operation word of R70, or a frame at one of the four frame units of R1 (the
SmartAudio and the TRAMP frame encoder and decoder). The unit says the direction, because the same command byte means
different things when sent and when received (R80). DESIGN CHOICE, unsafe (log 4): the frame units' own ports are the
model's; on the hardware a frame row is performed only inside `POLL` or a setter. -/
inductive InWord where
  | hostOp (op : Byte) (a : Half) (b : Byte) (list : List Byte)
  | saRequest (frame : List Byte)
  | saReply (frame : List Byte)
  | trRequest (frame : List Byte)
  | trReply (frame : List Byte)
deriving DecidableEq, Repr

/-- One stimulus of the block: a word and the time input `now` presented with it, in milliseconds (R70, 10_state.md
R23). The block samples `TIME_WIDTH` bits of it. -/
structure Stimulus where
  now : Nat
  word : InWord
deriving DecidableEq, Repr

/-- The instructions, in the table's order, with their operands decoded (R73). -/
inductive Instr where
  /-- INIT (R158) -/
  | init (present : Bool)
  /-- POLL (R161) -/
  | poll (rx : List Byte)
  /-- IS_READY (R162) -/
  | isReady
  /-- SET_FREQ (R163) -/
  | setFreq (mhz : Half)
  /-- SET_POWER (R164) -/
  | setPower (mw : Half)
  /-- SET_PIT (R165) -/
  | setPit (enable : Bool)
  /-- SET_BANDCH (R166) -/
  | setBandCh (band channel : Byte)
  /-- PROTOCOL_IN_USE (R160) -/
  | protocolInUse
  /-- SWITCH_PROTOCOL (R159) -/
  | switchProtocol (sel : Proto)
  /-- BAND_CH_TO_FREQ (R88) -/
  | bandChToFreq (band channel : Byte)
  /-- CRC8 (R92) -/
  | crc8 (m : List Byte)
  /-- TRAMP_CHECKSUM (R96) -/
  | trampChecksum (f : List Byte)
  /-- REG_READ (R167) -/
  | regRead (id : Byte)
  /-- SA_VALIDATE (R93) -/
  | saValidate (m : List Byte)
  /-- TRAMP_VALIDATE (R97) -/
  | trampValidate (f : List Byte)
  /-- SA GET_SETTINGS (R100) -/
  | saGetSettings
  /-- SA SET_POWER (R101): the raw power byte -/
  | saSetPower (pw : Byte)
  /-- SA SET_CHANNEL (R102): the device channel index -/
  | saSetChannel (idx : Byte)
  /-- SA SET_FREQUENCY (R103): MHz, or `SA_PIT_FLAG` -/
  | saSetFrequency (v : Half)
  /-- SA SET_MODE (R104): the mode bits -/
  | saSetMode (m : Byte)
  /-- SA reply GET_SETTINGS (V1) (R115): its payload -/
  | saReplySettingsV1 (p : List Byte)
  /-- SA reply GET_SETTINGS_V2 (R115) -/
  | saReplySettingsV2 (p : List Byte)
  /-- SA reply GET_SETTINGS_V2.1 (R115) -/
  | saReplySettingsV21 (p : List Byte)
  /-- SA reply SET_POWER echo (R117) -/
  | saReplySetPower (p : List Byte)
  /-- SA reply SET_CHANNEL echo (R117) -/
  | saReplySetChannel (p : List Byte)
  /-- SA reply SET_FREQUENCY echo (R116) -/
  | saReplySetFrequency (p : List Byte)
  /-- SA reply SET_MODE echo (R117) -/
  | saReplySetMode (p : List Byte)
  /-- SA reply other code (R118) -/
  | saReplyOther (code : Byte) (p : List Byte)
  /-- TR r (reset query) (R134) -/
  | trResetQuery
  /-- TR v (status query) (R134) -/
  | trStatusQuery
  /-- TR s (temperature query) (R134) -/
  | trTempQuery
  /-- TR F (set frequency) (R135) -/
  | trSetFrequency (mhz : Half)
  /-- TR P (set power) (R135) -/
  | trSetPower (mw : Half)
  /-- TR I (set active) (R135): pit mode on or off -/
  | trSetActive (pitOn : Bool)
  /-- TR reply r (reset-class) (R142) -/
  | trReplyReset (minFreq maxFreq maxPower : Half)
  /-- TR reply v (status-class) (R143) -/
  | trReplyStatus (freq power : Half) (ctrl : Byte) (pit : Bool) (actPower : Half)
  /-- TR reply s (temperature-class) (R144) -/
  | trReplyTemp (temp : Half)
deriving DecidableEq, Repr

end Sys2Proof
end

