-- ==== Sys2Proof/Machine/State.lean ====
section
/-! DEFINITION. The state of the block (10_state.md R26 to R44), its ports (20_memory.md R51 e, f; 46_host_ops.md R154
to R157), and the machine right after reset (R48, 70_reset_and_hazards.md R179). Plain data throughout. -/

namespace Sys2Proof.Machine

/-- The SmartAudio initialization phase (R28). -/
inductive SaPhase where
  | start
  | waitSettings
  | waitPitFrequency
  | done
deriving DecidableEq, Repr

/-- The SmartAudio receive state (R29). -/
inductive SaRx where
  | waitPreamble1
  | waitPreamble2
  | waitCommand
  | waitLength
  | waitData
  | waitCrc
deriving DecidableEq, Repr

/-- One slot of the SmartAudio queue: a command id and the complete frame (R32, 92 D13). -/
structure Slot where
  id : CmdId
  bytes : List Byte
deriving DecidableEq, Repr

/-- The SmartAudio command queue: a circular buffer of `SA_QUEUE_CAP` slots (R32). Logical entry `k < count` is
`slots[(head + k) mod SA_QUEUE_CAP]`. -/
structure SaQueue where
  slots : List Slot
  head : Nat
  count : Nat
deriving DecidableEq, Repr

/-- The SmartAudio engine (R28 to R35). `lastTx` is below `2^TIME_WIDTH` and each counter below `2^CNT_WIDTH` (log 13). -/
structure SaEngine where
  phase : SaPhase
  rx : SaRx
  rxCmd : Byte
  rxLen : Byte
  rxData : List Byte
  rxCount : Byte
  version : SaVersion
  channel : Option Byte
  power : Option Byte
  mode : Option Byte
  freq : Option Half
  pitFreq : Option Half
  q : SaQueue
  outstanding : Option CmdId
  lastTx : Option Nat
  badPreamble : Nat
  badLength : Nat
  crcErr : Nat
deriving DecidableEq, Repr

/-- The TRAMP engine state (R36). -/
inductive TrState where
  | offline
  | init
  | monFreqPwrPit
  | monTemp
  | config
deriving DecidableEq, Repr

/-- The TRAMP receive state (R37). -/
inductive TrRx where
  | waitHeader
  | waitResponseCode
  | accumulateData
deriving DecidableEq, Repr

/-- The desired pit mode (R40). -/
inductive DesPit where
  | unset
  | off
  | on
deriving DecidableEq, Repr

/-- The TRAMP engine (R36 to R44). `temp` holds the raw bits of the signed temperature (R41, R46); the stamps and the
counter are bounded as in `SaEngine` (log 13). -/
structure TrEngine where
  state : TrState
  rx : TrRx
  rxBuf : List Byte
  rxCount : Nat
  ready : Bool
  retry : Nat
  desFreq : Half
  desPower : Half
  desPit : DesPit
  obsFreq : Half
  obsPower : Half
  obsPit : Bool
  temp : Half
  actPower : Half
  ctrlFlags : Byte
  minFreq : Half
  maxFreq : Half
  maxPower : Half
  lastReq : Option Nat
  lastStatus : Option Nat
  badFrame : Nat
deriving DecidableEq, Repr

/-- The engine slot: zero or one engine (R27). -/
inductive Engine where
  | none
  | sa (e : SaEngine)
  | tramp (e : TrEngine)
deriving DecidableEq, Repr

/-- The parity of a transport configuration; the block only asks for none (R7, 46_host_ops.md R158). -/
inductive Parity where
  | none
deriving DecidableEq, Repr

/-- One event of the TX stream (00_scope.md R13, 46_host_ops.md R156, R158). -/
inductive TxEvent where
  /-- a byte group, its stabilization byte first -/
  | group (bytes : List Byte)
  /-- the flush after a group -/
  | flush
  /-- a transport-configuration request -/
  | configure (baud dataBits stopBits : Nat) (parity : Parity)
deriving DecidableEq, Repr

/-- The result of a host operation (46_host_ops.md R155). -/
structure HostResult where
  ok : Bool
  data : Word
deriving DecidableEq, Repr

/-- The machine: the spec's state (`proto`, `engine`), its time input, its output ports (`result`, `tx`), and the
model's own fields: the parameters `cfg` (log 11), the stimuli still to come `input` (log 2) and the frame that the
last step's request builder returned `built` (log 3). -/
structure State where
  cfg : Config
  proto : Proto
  engine : Engine
  now : Nat
  input : List Stimulus
  result : Option HostResult
  built : Option (List Byte)
  tx : List TxEvent
deriving DecidableEq, Repr

/-- The faults. Both are the model's (60_exceptions.md R168: the block itself has none), and no state that keeps the
invariant of Safety.lean raises one: safe. -/
inductive Fault where
  /-- Raised by a buffer or queue-slot access whose index is out of range (20_memory.md R52, 93_implementation_defined.md
  U7, log 8): safe. -/
  | bufferIndex
  /-- Raised by a dequeue of an empty queue, against the precondition of 43_sa_engine.md R120 (log 9): safe. -/
  | emptyDequeue
deriving DecidableEq, Repr

/-- The refusals. No step of this machine is refused. -/
inductive Refusal where
  /-- Raised by exec for an instruction without a meaning; no arm does: safe. -/
  | notModelled (mnemonic : String)
deriving DecidableEq, Repr

/-- The block constructed with the parameters `c`, right after reset: the protocol is `PROTO_SEL`, the engine slot is
empty, no TX event (R48, R179). DESIGN CHOICE, safe (log 2, log 3): `now` is 0 and no step has given an output yet. -/
def State.resetWith (c : Config) : State where
  cfg := c
  proto := c.protoSel
  engine := .none
  now := 0
  input := []
  result := Option.none
  built := Option.none
  tx := []

/-- The machine right after reset, with the default parameters (R7, R48). -/
def State.reset : State := State.resetWith standardConfig

end Sys2Proof.Machine
end

