-- ==== Sys2Proof/Machine/Flags.lean ====
section
/-! DEFINITION. The block's flags (10_state.md R45): `ready` and the race lock. The third, `ok`, is the result bit of
Ops.lean. No operation writes a flag as a side effect. -/

namespace Sys2Proof.Machine

/-- SmartAudio `ready`: `Done` with a known version (43_sa_engine.md R127). -/
def saReady (e : SaEngine) : Bool := decide (e.phase = .done ∧ e.version ≠ .unknown)

/-- `ready` (R45 b): 0 with no engine. -/
def readyFlag (s : State) : Bool :=
  match s.engine with
  | .none => false
  | .sa e => saReady e
  | .tramp e => e.ready

/-- `raceLocked = (ctrlFlags & TRAMP_RACE_LOCK_MASK) ≠ 0` (R42). -/
def raceLocked (c : Config) (e : TrEngine) : Bool := decide (e.ctrlFlags &&& c.trRaceLockMask ≠ 0)

/-- The version supports pit mode (43_sa_engine.md R131). -/
def pitSupported (v : SaVersion) : Bool := decide (v = .v2 ∨ v = .v21)

/-- "version is ≥2" in the order None < V1 < V2 < V21 (10_state.md R30). -/
def versionAtLeast2 (v : SaVersion) : Bool :=
  match v with
  | .unknown => false
  | .v1 => false
  | .v2 => true
  | .v21 => true

end Sys2Proof.Machine
end

