-- ==== Sys2Proof/Machine/Checksum.lean ====
section
/-! DEFINITION. The two integrity functions (41_checksum.md R90, R94), defined once (R98). -/

namespace Sys2Proof.Machine

/-- One of the eight shifts of R90: `c[7]` decides whether the generator 0xD5 is taken off. -/
def crcBit (c : Byte) : Byte := if c.getLsbD 7 then (c <<< 1) ^^^ 0xD5 else c <<< 1

/-- `n` shifts of R90. -/
def crcShifts : Nat → Byte → Byte
  | 0, c => c
  | n + 1, c => crcShifts n (crcBit c)

/-- One byte of the message (R90). -/
def crcByte (c d : Byte) : Byte := crcShifts 8 (c ^^^ d)

/-- `crc8(m)`: polynomial 0xD5, most significant bit first, initial value 0, no reflection, no final exclusive-or
(R90). -/
def crc8 (m : List Byte) : Byte := m.foldl crcByte 0

/-- `trampChecksum(f)`: the sum of bytes 1..13 mod 256 (R94). -/
def trampChecksum (f : List Byte) : Byte :=
  BitVec.ofNat 8 (((f.drop 1).take 13).map BitVec.toNat).sum

end Sys2Proof.Machine
end

