-- ==== Sys2Proof/Machine/Encoders.lean ====
section
/-! DEFINITION. The frame encoders: SmartAudio (42_sa_frames.md R99 to R104) and TRAMP (44_tramp_frames.md R133 to
R135), with the layouts of 30_encoding.md R74 and R81. -/

namespace Sys2Proof.Machine

/-- A SmartAudio frame with command byte `cmd` and payload `p` (R74). The CRC covers every preceding byte. -/
def saRawFrame (cmd : Byte) (p : List Byte) : List Byte :=
  let h := [0xAA, 0x55, cmd, BitVec.ofNat 8 p.length] ++ p
  h ++ [crc8 h]

/-- A request's command byte, `id << 1 | 1` (R75). -/
def saRequestByte (id : CmdId) : Byte := id ++ (1 : BitVec 1)

/-- `saFrame(id, p)` (R99). -/
def saFrame (id : CmdId) (p : List Byte) : List Byte := saRawFrame (saRequestByte id) p

/-- The GET_SETTINGS request (R100). -/
def saGetSettingsFrame : List Byte := saFrame 0x01 []

/-- The SET_POWER request (R101). -/
def saSetPowerFrame (pw : Byte) : List Byte := saFrame 0x02 [pw]

/-- The SET_CHANNEL request (R102). -/
def saSetChannelFrame (idx : Byte) : List Byte := saFrame 0x03 [idx]

/-- The SET_FREQUENCY request, big-endian (R103, R54). -/
def saSetFrequencyFrame (v : Half) : List Byte := saFrame 0x04 [hiByte v, loByte v]

/-- The SET_MODE request (R104). -/
def saSetModeFrame (m : Byte) : List Byte := saFrame 0x05 [m]

/-- A 16-byte TRAMP frame with code `c` and the twelve bytes `d` at 2..13, its checksum and its terminator (R81). -/
def trRawFrame (c : Byte) (d : List Byte) : List Byte :=
  let f := [0x0F, c] ++ d
  f ++ [trampChecksum f, 0x00]

/-- `trFrame(c, p)`: a TRAMP request; the ten reserved bytes are sent as 0 (R133). -/
def trFrame (c : Byte) (p : Half) : List Byte :=
  trRawFrame c ([loByte p, hiByte p] ++ List.replicate 10 0x00)

/-- The code `'r'` (R82, R83). -/
def trCodeReset : Byte := 0x72

/-- The code `'v'` (R82, R83). -/
def trCodeStatus : Byte := 0x76

/-- The code `'s'` (R82, R83). -/
def trCodeTemp : Byte := 0x73

/-- The code `'F'` (R82). -/
def trCodeFreq : Byte := 0x46

/-- The code `'P'` (R82). -/
def trCodePower : Byte := 0x50

/-- The code `'I'` (R82). -/
def trCodeActive : Byte := 0x49

/-- The parameter of `'I'`: pit mode on is sent as "inactive" (R135, R152). -/
def trPitParam (c : Config) (pitOn : Bool) : Half := if pitOn then c.trPitInactive else c.trPitActive

/-- The reset query (R134). -/
def trResetQueryFrame : List Byte := trFrame trCodeReset 0

/-- The status query (R134). -/
def trStatusQueryFrame : List Byte := trFrame trCodeStatus 0

/-- The temperature query (R134). -/
def trTempQueryFrame : List Byte := trFrame trCodeTemp 0

/-- The set-frequency command (R135). -/
def trSetFrequencyFrame (f : Half) : List Byte := trFrame trCodeFreq f

/-- The set-power command (R135). -/
def trSetPowerFrame (mw : Half) : List Byte := trFrame trCodePower mw

/-- The set-active command (R135). -/
def trSetActiveFrame (c : Config) (pitOn : Bool) : List Byte := trFrame trCodeActive (trPitParam c pitOn)

end Sys2Proof.Machine
end

