-- ==== Sys2Proof/Machine/Ops.lean ====
section
/-! DEFINITION. The operations every rule is written with: the ports (00_scope.md R13), the buffers (20_memory.md R52),
the realisation of `raise` (R14: a result or a counter; the block takes no exception, 60_exceptions.md R168), and the
fresh engines of `INIT` (10_state.md R49, R50). -/

namespace Sys2Proof.Machine

/-- The outcome of a step of this machine. -/
abbrev Out := Host.Outcome State Fault Refusal

/-! Ports. -/

/-- `return (ok, data)` (R13, R155). -/
def ret (ok : Bool) (data : Word) (s : State) : State := { s with result := some ⟨ok, data⟩ }

/-- `return fail` (R13). -/
def retFail (s : State) : State := ret false 0 s

/-- `return ok` (R13). -/
def retOk (s : State) : State := ret true 0 s

/-- `TxFrame(f)`: the stabilization byte and the frame as one group, then a flush (R13, R156). -/
def txFrame (f : List Byte) (s : State) : State := { s with tx := s.tx ++ [.group (0x00 :: f), .flush] }

/-- `TxFrame` of the frame that an engine rule sent, if it sent one. -/
def txSent (f : Option (List Byte)) (s : State) : State :=
  match f with
  | none => s
  | some f => txFrame f s

/-- `TxConfigure(baud, data, stop, none)` (R13, R158). -/
def txConfigure (baud dataBits stopBits : Nat) (s : State) : State :=
  { s with tx := s.tx ++ [.configure baud dataBits stopBits .none] }

/-- Writes the engine slot. -/
def setEngine (e : Engine) (s : State) : State := { s with engine := e }

/-- The frame that a request builder returned. -/
def setBuilt (f : Option (List Byte)) (s : State) : State := { s with built := f }

/-! Buffers. -/

/-- `MemRead(buf, i, 1)` (R52); out of range is a fault of the model (log 8). -/
def memRead (buf : List Byte) (i : Nat) : Except Fault Byte :=
  if h : i < buf.length then .ok buf[i] else .error .bufferIndex

/-- `MemWrite(buf, i, 1, v)` (R52); out of range is a fault of the model (log 8). -/
def memWrite (buf : List Byte) (i : Nat) (v : Byte) : Except Fault (List Byte) :=
  if i < buf.length then .ok (buf.set i v) else .error .bufferIndex

/-- Bytes `0 .. n-1` of a buffer (42_sa_frames.md R111). -/
def memReadRange (buf : List Byte) (n : Nat) : Except Fault (List Byte) :=
  if n ≤ buf.length then .ok (buf.take n) else .error .bufferIndex

/-- Reads a queue slot (10_state.md R32). -/
def slotRead (slots : List Slot) (i : Nat) : Except Fault Slot :=
  if h : i < slots.length then .ok slots[i] else .error .bufferIndex

/-- Writes a queue slot (10_state.md R32). -/
def slotWrite (slots : List Slot) (i : Nat) (x : Slot) : Except Fault (List Slot) :=
  if i < slots.length then .ok (slots.set i x) else .error .bufferIndex

/-- `count(c)`: a diagnostic counter plus 1, modulo `2^CNT_WIDTH` (R14, 60_exceptions.md R176). -/
def count (c : Config) (n : Nat) : Nat := addMod c.cntWidth n 1

/-! Engine lifetime. -/

/-- A queue with no entry. The slots are "unspecified (unobservable)" (R49, 93 U2); DESIGN CHOICE, unsafe (log 10): id 0
and no bytes. -/
def freshQueue : SaQueue := ⟨List.replicate saQueueCap ⟨0, []⟩, 0, 0⟩

/-- A fresh SmartAudio engine (R49). -/
def freshSa (c : Config) : SaEngine where
  phase := .start
  rx := .waitPreamble1
  rxCmd := 0
  rxLen := 0
  rxData := List.replicate c.saMaxPayload 0x00
  rxCount := 0
  version := .unknown
  channel := none
  power := none
  mode := none
  freq := none
  pitFreq := none
  q := freshQueue
  outstanding := none
  lastTx := none
  badPreamble := 0
  badLength := 0
  crcErr := 0

/-- A fresh TRAMP engine (R50). -/
def freshTr : TrEngine where
  state := .offline
  rx := .waitHeader
  rxBuf := List.replicate trFrameLen 0x00
  rxCount := 0
  ready := false
  retry := trMaxRetry
  desFreq := 0
  desPower := 0
  desPit := .unset
  obsFreq := 0
  obsPower := 0
  obsPit := false
  temp := 0
  actPower := 0
  ctrlFlags := 0
  minFreq := 0
  maxFreq := 0
  maxPower := 0
  lastReq := none
  lastStatus := none
  badFrame := 0

/-! How an engine rule's answer becomes the operation's outcome. -/

/-- The outcome of a SmartAudio setter: a fault of the model, `fail` with nothing changed (R155), or the new engine and
`ok`. -/
def finishSaSetter (r : Except Fault (Option SaEngine)) (s : State) : Out :=
  match r with
  | .error f => .fault f
  | .ok none => .next (retFail s)
  | .ok (some e) => .next (retOk (setEngine (.sa e) s))

/-- The outcome of a TRAMP setter: `fail` with nothing changed, or the new engine, the frame it sent if any, and
`ok`. -/
def finishTrSetter (r : Option (TrEngine × Option (List Byte))) (s : State) : Out :=
  match r with
  | none => .next (retFail s)
  | some (e, f) => .next (retOk (txSent f (setEngine (.tramp e) s)))

/-- Performs a SmartAudio rule on the engine. "All rules here apply only when `S.engine = SA(S.sa)`" (42_sa_frames.md):
with another engine or none nothing happens (log 5). -/
def onSa (r : SaEngine → Except Fault SaEngine) (s : State) : Out :=
  match s.engine with
  | .sa e =>
    match r e with
    | .error f => .fault f
    | .ok e' => .next (setEngine (.sa e') s)
  | _ => .next s

/-- Performs a TRAMP rule on the engine, as `onSa` (44_tramp_frames.md, log 5). -/
def onTr (r : TrEngine → Except Fault TrEngine) (s : State) : Out :=
  match s.engine with
  | .tramp e =>
    match r e with
    | .error f => .fault f
    | .ok e' => .next (setEngine (.tramp e') s)
  | _ => .next s

/-- Gives a SmartAudio request frame; the builder writes nothing else (42_sa_frames.md R100 to R104). It applies only
while a SmartAudio engine exists (log 5). -/
def buildSa (f : Option (List Byte)) (s : State) : Out :=
  match s.engine with
  | .sa _ => .next (setBuilt f s)
  | _ => .next s

/-- Gives a TRAMP request frame, as `buildSa` (44_tramp_frames.md R134, R135). -/
def buildTr (f : Option (List Byte)) (s : State) : Out :=
  match s.engine with
  | .tramp _ => .next (setBuilt f s)
  | _ => .next s

end Sys2Proof.Machine
end

