-- ==== Sys2Proof/Machine/SaQueue.lean ====
section
/-! DEFINITION. The SmartAudio command queue and the completion of outstanding commands (43_sa_engine.md R119 to R123;
42_sa_frames.md R112). -/

namespace Sys2Proof.Machine

/-- The slot of logical entry `k` (10_state.md R32). -/
def slotIndex (q : SaQueue) (k : Nat) : Nat := (q.head + k) % saQueueCap

/-- `saEnqueue(f, id)` on the queue (R119): a full queue drops the new command silently. -/
def queuePush (f : List Byte) (id : CmdId) (q : SaQueue) : Except Fault SaQueue :=
  if q.count = saQueueCap then .ok q
  else do
    let slots ← slotWrite q.slots (slotIndex q q.count) ⟨id, f⟩
    return { q with slots := slots, count := q.count + 1 }

/-- `saDequeue()` (R120). Its precondition is `count ≥ 1`; without it, a fault of the model (log 9). -/
def queuePop (q : SaQueue) : Except Fault SaQueue :=
  if q.count = 0 then .error .emptyDequeue
  else .ok { q with head := (q.head + 1) % saQueueCap, count := q.count - 1 }

/-- The front entry, `slot[head]` (R124). -/
def queueFront (q : SaQueue) : Except Fault Slot := slotRead q.slots q.head

/-- `saEnqueue(f, id)` (R119). -/
def saEnqueue (f : List Byte) (id : CmdId) (e : SaEngine) : Except Fault SaEngine := do
  let q ← queuePush f id e.q
  return { e with q := q }

/-- `class(id)`: the reply codes that answer a request (R112). -/
def replyClass (id : CmdId) : List Byte :=
  if id = 0x01 then [0x01, 0x09, 0x11]
  else if id = 0x02 then [0x02]
  else if id = 0x03 then [0x03]
  else if id = 0x04 then [0x04]
  else if id = 0x05 then [0x05]
  else []

/-- `saComplete(r)` (R123): a reply of the outstanding command's class dequeues the front and clears the marker. -/
def saComplete (r : Byte) (e : SaEngine) : Except Fault SaEngine :=
  match e.outstanding with
  | none => .ok e
  | some o =>
    if r ∈ replyClass o then do
      let q ← queuePop e.q
      return { e with q := q, outstanding := none }
    else .ok e

end Sys2Proof.Machine
end

