-- ==== Sys2Proof/Machine/Registers.lean ====
section
/-! DEFINITION. The register-read space (10_state.md R46) and REG_READ (46_host_ops.md R167). -/

namespace Sys2Proof.Machine

/-- `S.proto` as it reads (R26). -/
def protoCode (p : Proto) : Word :=
  match p with
  | .sa => 0
  | .tramp => 1

/-- `S.sa.phase` as it reads (R28). -/
def phaseCode (p : SaPhase) : Word :=
  match p with
  | .start => 0
  | .waitSettings => 1
  | .waitPitFrequency => 2
  | .done => 3

/-- `S.sa.rx` as it reads (R29). -/
def saRxCode (r : SaRx) : Word :=
  match r with
  | .waitPreamble1 => 0
  | .waitPreamble2 => 1
  | .waitCommand => 2
  | .waitLength => 3
  | .waitData => 4
  | .waitCrc => 5

/-- `S.sa.version` as it reads (R30). -/
def versionCode (v : SaVersion) : Word :=
  match v with
  | .unknown => 0
  | .v1 => 1
  | .v2 => 2
  | .v21 => 3

/-- `S.tr.state` as it reads (R36). -/
def trStateCode (t : TrState) : Word :=
  match t with
  | .offline => 0
  | .init => 1
  | .monFreqPwrPit => 2
  | .monTemp => 3
  | .config => 4

/-- `S.tr.rx` as it reads (R37). -/
def trRxCodeOf (r : TrRx) : Word :=
  match r with
  | .waitHeader => 0
  | .waitResponseCode => 1
  | .accumulateData => 2

/-- `S.tr.desPit` as it reads (R46). -/
def desPitCode (d : DesPit) : Word :=
  match d with
  | .unset => 0
  | .off => 0x80000000
  | .on => 0x80000001

/-- An optional field as it reads: bit 31 and the value when present, 0 when absent (R46). -/
def optWord (v : Option (BitVec n)) : Word :=
  match v with
  | none => 0
  | some v => 0x80000000 ||| zext v

/-- A count as a 32-bit value (R46); of a counter wider than the result's 32 bits, the low 32 bits (log 13). -/
def natWord (n : Nat) : Word := BitVec.ofNat 32 n

/-- The id of logical queue entry `k`, absent at and beyond `count` (R46, SA_QENTRY_ID_k). -/
def queueEntryId (q : SaQueue) (k : Nat) : Option CmdId :=
  if k < q.count then (q.slots[slotIndex q k]?).map (·.id) else none

/-- The registers of every configuration (R46, rows marked any). -/
def anyRegisters (s : State) : List (Byte × Word) :=
  [(0x00, protoCode s.proto),
   (0x01, flagWord (decide (s.engine ≠ .none))),
   (0x02, flagWord (readyFlag s))]

/-- The SmartAudio registers (R46, rows marked SA). -/
def saRegisters (e : SaEngine) : List (Byte × Word) :=
  [(0x10, phaseCode e.phase),
   (0x11, saRxCode e.rx),
   (0x12, versionCode e.version),
   (0x13, optWord e.channel),
   (0x14, optWord e.power),
   (0x15, optWord e.mode),
   (0x16, optWord e.freq),
   (0x17, optWord e.pitFreq),
   (0x18, optWord e.outstanding),
   (0x19, natWord e.q.count),
   (0x1A, natWord e.q.head),
   (0x1C, natWord e.badPreamble),
   (0x1D, natWord e.badLength),
   (0x1E, natWord e.crcErr),
   (0x30, optWord (queueEntryId e.q 0)),
   (0x31, optWord (queueEntryId e.q 1)),
   (0x32, optWord (queueEntryId e.q 2)),
   (0x33, optWord (queueEntryId e.q 3))]

/-- The TRAMP registers (R46, rows marked TR). -/
def trRegisters (e : TrEngine) : List (Byte × Word) :=
  [(0x40, trStateCode e.state),
   (0x41, trRxCodeOf e.rx),
   (0x42, natWord e.retry),
   (0x43, zext e.desFreq),
   (0x44, zext e.desPower),
   (0x45, desPitCode e.desPit),
   (0x46, zext e.obsFreq),
   (0x47, zext e.obsPower),
   (0x48, flagWord e.obsPit),
   (0x49, zext e.temp),
   (0x4A, zext e.actPower),
   (0x4B, zext e.ctrlFlags),
   (0x4C, zext e.minFreq),
   (0x4D, zext e.maxFreq),
   (0x4E, zext e.maxPower),
   (0x51, natWord e.badFrame)]

/-- The registers of the engine in the slot. -/
def engineRegisters (g : Engine) : List (Byte × Word) :=
  match g with
  | .none => []
  | .sa e => saRegisters e
  | .tramp e => trRegisters e

/-- `RegRead(id)`: none when the id does not exist in the current configuration (R46). -/
def regRead (s : State) (id : Byte) : Option Word := (anyRegisters s ++ engineRegisters s.engine).lookup id

/-- REG_READ (R167): no side effect. -/
def execRegRead (id : Byte) (s : State) : Out :=
  match regRead s id with
  | none => .next (retFail s)
  | some v => .next (ret true v s)

end Sys2Proof.Machine
end

