-- ==== Sys2Proof/Machine/FreqTable.lean ====
section
/-! DEFINITION. The band/channel lookup (40_freq_table.md). -/

namespace Sys2Proof.Machine

/-- `FT[band][channel]`, or the sentinel 0 out of range (R87, R88). -/
def bandChFreq (c : Config) (band channel : Byte) : Half :=
  if h : 1 ≤ band.toNat ∧ band.toNat ≤ 5 ∧ 1 ≤ channel.toNat ∧ channel.toNat ≤ 8 then
    (c.freqTable[band.toNat - 1]'(by omega))[channel.toNat - 1]'(by omega)
  else 0

/-- `idx(band, channel) = (band - 1) * 8 + (channel - 1)` (R89). -/
def channelIndex (band channel : Byte) : Byte := BitVec.ofNat 8 ((band.toNat - 1) * 8 + (channel.toNat - 1))

/-- BAND_CH_TO_FREQ (R88): a pure function; `ok` is 1 for every input. -/
def execBandChToFreq (band channel : Byte) (s : State) : Out :=
  .next (ret true (zext (bandChFreq s.cfg band channel)) s)

end Sys2Proof.Machine
end

