-- ==== Sys2Proof/Machine/SaFrames.lean ====
section
/-! DEFINITION. SmartAudio frames: the request rows (42_sa_frames.md R100 to R104), the receive state machine (R105 to
R111) and the reply rows (R113 to R118). -/

namespace Sys2Proof.Machine

/-! Requests. -/

/-- SA GET_SETTINGS (R100). -/
def execSaGetSettings (s : State) : Out := buildSa (some saGetSettingsFrame) s

/-- SA SET_POWER (R101). -/
def execSaSetPower (pw : Byte) (s : State) : Out := buildSa (some (saSetPowerFrame pw)) s

/-- SA SET_CHANNEL (R102). -/
def execSaSetChannel (idx : Byte) (s : State) : Out := buildSa (some (saSetChannelFrame idx)) s

/-- SA SET_FREQUENCY (R103). -/
def execSaSetFrequency (v : Half) (s : State) : Out := buildSa (some (saSetFrequencyFrame v)) s

/-- SA SET_MODE (R104). -/
def execSaSetMode (m : Byte) (s : State) : Out := buildSa (some (saSetModeFrame m)) s

/-! Replies. -/

/-- The version that a settings reply's code sets (R114). -/
def replyVersion (r : Byte) : SaVersion :=
  if r = 0x01 then .v1 else if r = 0x09 then .v2 else .v21

/-- `saRespSettings(r, n, p)` with `n = len(p)` (R115): the version always, and the fields that the payload reaches. -/
def saRespSettings (r : Byte) (p : List Byte) (e : SaEngine) : SaEngine :=
  { e with
    version := replyVersion r
    channel := if 1 ≤ p.length then some (p.getD 0 0) else e.channel
    power := if 2 ≤ p.length then some (p.getD 1 0) else e.power
    mode := if 3 ≤ p.length then some (p.getD 2 0) else e.mode
    freq := if 5 ≤ p.length then some (u16be (p.getD 3 0) (p.getD 4 0)) else e.freq }

/-- `saRespSetFreq(n, p)` with `n = len(p)` (R116): the flag tells a pit-frequency report from a frequency. -/
def saRespSetFreq (c : Config) (p : List Byte) (e : SaEngine) : SaEngine :=
  if 2 ≤ p.length then
    let v := u16be (p.getD 0 0) (p.getD 1 0)
    if v &&& c.saPitFlag ≠ 0 then { e with pitFreq := some (v &&& (0xFFFF ^^^ c.saPitFlag)) }
    else { e with freq := some v }
  else e

/-- `saRespEcho(r)` (R117): no observed field changes. -/
def saRespEcho (e : SaEngine) : SaEngine := e

/-- `saRespOther(r)` (R118): no state changes. -/
def saRespOther (e : SaEngine) : SaEngine := e

/-- The handler that R113 chooses for the code `r`. -/
def saRespond (c : Config) (r : Byte) (p : List Byte) (e : SaEngine) : SaEngine :=
  if r = 0x01 ∨ r = 0x09 ∨ r = 0x11 then saRespSettings r p e
  else if r = 0x04 then saRespSetFreq c p e
  else if r = 0x02 ∨ r = 0x03 ∨ r = 0x05 then saRespEcho e
  else saRespOther e

/-- `saDispatch(r, n, p)` (R113): the handler, then the completion. -/
def saDispatch (c : Config) (r : Byte) (p : List Byte) (e : SaEngine) : Except Fault SaEngine :=
  saComplete r (saRespond c r p e)

/-- SA reply GET_SETTINGS (V1) (R115). -/
def execSaReplySettingsV1 (p : List Byte) (s : State) : Out := onSa (saDispatch s.cfg 0x01 p) s

/-- SA reply GET_SETTINGS_V2 (R115). -/
def execSaReplySettingsV2 (p : List Byte) (s : State) : Out := onSa (saDispatch s.cfg 0x09 p) s

/-- SA reply GET_SETTINGS_V2.1 (R115). -/
def execSaReplySettingsV21 (p : List Byte) (s : State) : Out := onSa (saDispatch s.cfg 0x11 p) s

/-- SA reply SET_POWER echo (R117). -/
def execSaReplySetPower (p : List Byte) (s : State) : Out := onSa (saDispatch s.cfg 0x02 p) s

/-- SA reply SET_CHANNEL echo (R117). -/
def execSaReplySetChannel (p : List Byte) (s : State) : Out := onSa (saDispatch s.cfg 0x03 p) s

/-- SA reply SET_FREQUENCY echo (R116). -/
def execSaReplySetFrequency (p : List Byte) (s : State) : Out := onSa (saDispatch s.cfg 0x04 p) s

/-- SA reply SET_MODE echo (R117). -/
def execSaReplySetMode (p : List Byte) (s : State) : Out := onSa (saDispatch s.cfg 0x05 p) s

/-- SA reply other code (R118). -/
def execSaReplyOther (code : Byte) (p : List Byte) (s : State) : Out := onSa (saDispatch s.cfg code p) s

/-! The receiver: `saRxByte(d)` in each receive state. -/

/-- `WaitPreamble1` (R106). -/
def saRxPreamble1 (c : Config) (d : Byte) (e : SaEngine) : SaEngine :=
  if d = 0xAA then { e with rx := .waitPreamble2 }
  else { e with badPreamble := count c e.badPreamble }

/-- `WaitPreamble2` (R107): the mismatching byte is not examined again. -/
def saRxPreamble2 (c : Config) (d : Byte) (e : SaEngine) : SaEngine :=
  if d = 0x55 then { e with rx := .waitCommand }
  else { e with badPreamble := count c e.badPreamble, rx := .waitPreamble1 }

/-- `WaitCommand` (R108). -/
def saRxCommand (d : Byte) (e : SaEngine) : SaEngine := { e with rxCmd := d, rx := .waitLength }

/-- `WaitLength` (R109). -/
def saRxLength (c : Config) (d : Byte) (e : SaEngine) : SaEngine :=
  if c.saMaxPayload < d.toNat then { e with badLength := count c e.badLength, rx := .waitPreamble1 }
  else { e with rxLen := d, rxCount := 0, rx := if d = 0 then .waitCrc else .waitData }

/-- `WaitData` (R110). -/
def saRxPayload (d : Byte) (e : SaEngine) : Except Fault SaEngine := do
  let data ← memWrite e.rxData e.rxCount.toNat d
  return { e with
    rxData := data
    rxCount := e.rxCount + 1
    rx := if e.rxCount + 1 = e.rxLen then .waitCrc else e.rx }

/-- `WaitCrc` (R111): a mismatch changes nothing but `crcErr` and `rx`. -/
def saRxCrc (c : Config) (d : Byte) (e : SaEngine) : Except Fault SaEngine := do
  let p ← memReadRange e.rxData e.rxLen.toNat
  if crc8 ([0xAA, 0x55, e.rxCmd, e.rxLen] ++ p) = d then
    saDispatch c e.rxCmd p { e with rx := .waitPreamble1 }
  else return { e with rx := .waitPreamble1, crcErr := count c e.crcErr }

/-- `saRxByte(d)` (R106 to R111). -/
def saRxByte (c : Config) (d : Byte) (e : SaEngine) : Except Fault SaEngine :=
  match e.rx with
  | .waitPreamble1 => .ok (saRxPreamble1 c d e)
  | .waitPreamble2 => .ok (saRxPreamble2 c d e)
  | .waitCommand => .ok (saRxCommand d e)
  | .waitLength => .ok (saRxLength c d e)
  | .waitData => saRxPayload d e
  | .waitCrc => saRxCrc c d e

/-- The receiver over an RX list, one byte at a time in arrival order (R105, 20_memory.md R63). -/
def saRxList (c : Config) : List Byte → SaEngine → Except Fault SaEngine
  | [], e => .ok e
  | d :: ds, e => do
    let e ← saRxByte c d e
    saRxList c ds e

end Sys2Proof.Machine
end

