-- ==== Sys2Proof/Machine/SaEngine.lean ====
section
/-! DEFINITION. The SmartAudio engine: the initialization step, the outbound scheduler and the setters (43_sa_engine.md
R124 to R132). -/

namespace Sys2Proof.Machine

/-- The command id of GET_SETTINGS (30_encoding.md R76). -/
def saIdGetSettings : CmdId := 0x01

/-- The command id of SET_POWER (R76). -/
def saIdSetPower : CmdId := 0x02

/-- The command id of SET_CHANNEL (R76). -/
def saIdSetChannel : CmdId := 0x03

/-- The command id of SET_FREQUENCY (R76). -/
def saIdSetFrequency : CmdId := 0x04

/-- The command id of SET_MODE (R76). -/
def saIdSetMode : CmdId := 0x05

/-- `saInitStep()` (R126): at most one phase per `POLL`. -/
def saInitStep (c : Config) (e : SaEngine) : Except Fault SaEngine :=
  match e.phase with
  | .start => do
    let e ← saEnqueue saGetSettingsFrame saIdGetSettings e
    return { e with phase := .waitSettings }
  | .waitSettings =>
    if e.version = .unknown then .ok e
    else if versionAtLeast2 e.version then do
      let e ← saEnqueue (saSetFrequencyFrame c.saPitFlag) saIdSetFrequency e
      return { e with phase := .waitPitFrequency }
    else .ok { e with phase := .done }
  | .waitPitFrequency => .ok (if e.pitFreq.isSome then { e with phase := .done } else e)
  | .done => .ok e

/-- `saOutbound()` (R124): resend the outstanding front after the timeout, else send the front, else enqueue a settings
poll. The second component is the frame sent, if one was. -/
def saOutbound (c : Config) (now : Nat) (e : SaEngine) : Except Fault (SaEngine × Option (List Byte)) :=
  if e.outstanding ≠ none then
    if due c now e.lastTx c.saCmdTimeoutMs then do
      let f ← queueFront e.q
      return ({ e with lastTx := some now }, some f.bytes)
    else .ok (e, none)
  else if 0 < e.q.count then do
    let f ← queueFront e.q
    return ({ e with outstanding := some f.id, lastTx := some now }, some f.bytes)
  else if e.phase = .done ∧ due c now e.lastTx c.saPollIntervalMs then do
    let e ← saEnqueue saGetSettingsFrame saIdGetSettings e
    return (e, none)
  else .ok (e, none)

/-- The SmartAudio branch of `POLL` (46_host_ops.md R161, 20_memory.md R65): receive, initialize, schedule. -/
def saPoll (c : Config) (now : Nat) (rx : List Byte) (e : SaEngine) :
    Except Fault (SaEngine × Option (List Byte)) := do
  let e ← saRxList c rx e
  let e ← saInitStep c e
  saOutbound c now e

/-- A setter's enqueue: `ok` whether or not the queue had room (R128, 92 D23). -/
def saSend (f : List Byte) (id : CmdId) (e : SaEngine) : Except Fault (Option SaEngine) := do
  let e ← saEnqueue f id e
  return some e

/-- SmartAudio `setFrequency(f)` (R128); `none` is `fail`. -/
def saSetFrequency (f : Half) (e : SaEngine) : Except Fault (Option SaEngine) :=
  if freqInRange f then saSend (saSetFrequencyFrame f) saIdSetFrequency e else .ok none

/-- `SA_POWER_MAP(version, mW)` (R129). -/
def saPowerLevel (c : Config) (v : SaVersion) (mw : Half) : Option Byte :=
  (c.saPowerMap.find? fun x => decide (x.version = v ∧ x.mw = mw)).map (·.level)

/-- SmartAudio `setPower(mw)` (R130). -/
def saSetPower (c : Config) (mw : Half) (e : SaEngine) : Except Fault (Option SaEngine) :=
  match saPowerLevel c e.version mw with
  | none => .ok none
  | some pw => saSend (saSetPowerFrame pw) saIdSetPower e

/-- The mode bits of `setPitMode(enable)`: in-range pit mode, or clear pit mode (R131, 30_encoding.md R77). -/
def saPitMode (enable : Bool) : Byte := if enable then 0x01 else 0x04

/-- SmartAudio `setPitMode(enable)` (R131). -/
def saSetPitMode (enable : Bool) (e : SaEngine) : Except Fault (Option SaEngine) :=
  if pitSupported e.version then saSend (saSetModeFrame (saPitMode enable)) saIdSetMode e else .ok none

/-- SmartAudio `setBandAndChannel(band, channel)` (R132). -/
def saSetBandCh (band channel : Byte) (e : SaEngine) : Except Fault (Option SaEngine) :=
  if bandChannelInRange band channel then
    saSend (saSetChannelFrame (channelIndex band channel)) saIdSetChannel e
  else .ok none

end Sys2Proof.Machine
end

