-- ==== Sys2Proof/WellFormed.lean ====
section
/-! DEFINITION. Which instructions are well-formed: the operand ranges of 30_encoding.md R74 and R78. A host operation
takes any operand (R70, R73: a bad one fails when the operation runs), and a request builder takes every byte (R101, R102:
its caller checks the range); the checks are on the replies. -/

namespace Sys2Proof

/-- The reply codes the block recognises (R78). -/
def listedReplyCodes : List Byte := [0x01, 0x09, 0x11, 0x02, 0x03, 0x04, 0x05]

/-- A reply's payload fits the receiver: `length ≤ SA_MAX_PAYLOAD` (R74). -/
def payloadFits (c : Config) (p : List Byte) : Bool := decide (p.length ≤ c.saMaxPayload)

/-- Well-formedness of an instruction under the parameters `c`: a reply's payload fits (R74), and "other" is none of the
listed codes (R78). -/
def Instr.wellFormed (c : Config) : Instr → Bool
  | .init _ => true
  | .poll _ => true
  | .isReady => true
  | .setFreq _ => true
  | .setPower _ => true
  | .setPit _ => true
  | .setBandCh _ _ => true
  | .protocolInUse => true
  | .switchProtocol _ => true
  | .bandChToFreq _ _ => true
  | .crc8 _ => true
  | .trampChecksum _ => true
  | .regRead _ => true
  | .saValidate _ => true
  | .trampValidate _ => true
  | .saGetSettings => true
  | .saSetPower _ => true
  | .saSetChannel _ => true
  | .saSetFrequency _ => true
  | .saSetMode _ => true
  | .saReplySettingsV1 p => payloadFits c p
  | .saReplySettingsV2 p => payloadFits c p
  | .saReplySettingsV21 p => payloadFits c p
  | .saReplySetPower p => payloadFits c p
  | .saReplySetChannel p => payloadFits c p
  | .saReplySetFrequency p => payloadFits c p
  | .saReplySetMode p => payloadFits c p
  | .saReplyOther code p => !listedReplyCodes.contains code && payloadFits c p
  | .trResetQuery => true
  | .trStatusQuery => true
  | .trTempQuery => true
  | .trSetFrequency _ => true
  | .trSetPower _ => true
  | .trSetActive _ => true
  | .trReplyReset _ _ _ => true
  | .trReplyStatus _ _ _ _ _ => true
  | .trReplyTemp _ => true

end Sys2Proof
end

