-- ==== Sys2Proof/Decode.lean ====
section
/-! DEFINITION. The decoder of the block's encoded forms, total and rejecting by name, and the encoder, from the same
tables: host operations (30_encoding.md R71, R73), SmartAudio frames (R74 to R79), TRAMP frames (R81 to R84). -/

namespace Sys2Proof
open Sys2Proof.Machine

/-- Why a word is no instruction. -/
inductive DecodeError where
  /-- an `op` not in the table of R71 (R72) -/
  | illegalOp (op : Byte)
  /-- not `AA 55`, or shorter than a SmartAudio frame (R74) -/
  | badPreamble
  /-- a length byte that is over `SA_MAX_PAYLOAD` or is not the frame's own length, or a length the request does not have (R74, R76) -/
  | badLength
  /-- a SmartAudio CRC mismatch (R74) -/
  | badCrc
  /-- not 16 bytes, or byte 0 is not 0x0F (R81) -/
  | badHeader
  /-- a TRAMP checksum mismatch (R81) -/
  | badChecksum
  /-- a TRAMP terminator that is not 0 (R81) -/
  | badTerminator
  /-- a command byte or character that the unit does not have (R76, R82, R83) -/
  | badCode (code : Byte)
  /-- reserved bytes or a parameter that the request's row does not have (R81, R82) -/
  | badOperand
deriving DecidableEq, Repr

/-- A host operation word (R71, R73); operands that the operation does not use are ignored (R70). -/
def decodeHostOp (op : Byte) (a : Half) (b : Byte) (list : List Byte) : Except DecodeError Instr :=
  if op = 0x01 then .ok (.init (operandFlag b))
  else if op = 0x02 then .ok (.poll list)
  else if op = 0x03 then .ok .isReady
  else if op = 0x04 then .ok (.setFreq a)
  else if op = 0x05 then .ok (.setPower a)
  else if op = 0x06 then .ok (.setPit (operandFlag b))
  else if op = 0x07 then .ok (.setBandCh (operandBand a) b)
  else if op = 0x08 then .ok .protocolInUse
  else if op = 0x09 then .ok (.switchProtocol (operandProto b))
  else if op = 0x0A then .ok (.bandChToFreq (operandBand a) b)
  else if op = 0x0B then .ok (.crc8 list)
  else if op = 0x0C then .ok (.trampChecksum list)
  else if op = 0x0D then .ok (.regRead b)
  else if op = 0x0E then .ok (.saValidate list)
  else if op = 0x0F then .ok (.trampValidate list)
  else .error (.illegalOp op)

/-- A SmartAudio frame's command byte and payload, its preamble, length and CRC checked (R74, R79, R80). -/
def parseSaFrame (c : Config) (frame : List Byte) : Except DecodeError (Byte × List Byte) :=
  match frame with
  | p1 :: p2 :: cmd :: len :: rest =>
    if p1 = 0xAA ∧ p2 = 0x55 then
      if len.toNat ≤ c.saMaxPayload ∧ rest.length = len.toNat + 1 then
        let p := rest.take len.toNat
        if frame = saRawFrame cmd p then .ok (cmd, p) else .error .badCrc
      else .error .badLength
    else .error .badPreamble
  | _ => .error .badPreamble

/-- A request by its command byte and payload (R76). A payload byte takes every value, as the builders do (R101, R102,
R104; log 22). -/
def decodeSaRequest (cmd : Byte) (p : List Byte) : Except DecodeError Instr :=
  if cmd = 0x03 then
    match p with
    | [] => .ok .saGetSettings
    | _ => .error .badLength
  else if cmd = 0x05 then
    match p with
    | [pw] => .ok (.saSetPower pw)
    | _ => .error .badLength
  else if cmd = 0x07 then
    match p with
    | [idx] => .ok (.saSetChannel idx)
    | _ => .error .badLength
  else if cmd = 0x09 then
    match p with
    | [hi, lo] => .ok (.saSetFrequency (u16be hi lo))
    | _ => .error .badLength
  else if cmd = 0x0B then
    match p with
    | [m] => .ok (.saSetMode m)
    | _ => .error .badLength
  else .error (.badCode cmd)

/-- A reply by its command byte, matched as a whole byte (R75, R78); a code that is not listed is "other" (R79). -/
def decodeSaReply (cmd : Byte) (p : List Byte) : Instr :=
  if cmd = 0x01 then .saReplySettingsV1 p
  else if cmd = 0x09 then .saReplySettingsV2 p
  else if cmd = 0x11 then .saReplySettingsV21 p
  else if cmd = 0x02 then .saReplySetPower p
  else if cmd = 0x03 then .saReplySetChannel p
  else if cmd = 0x04 then .saReplySetFrequency p
  else if cmd = 0x05 then .saReplySetMode p
  else .saReplyOther cmd p

/-- A TRAMP frame's code and the frame, its length, header, checksum and terminator checked (R81, R84). -/
def parseTrFrame (frame : List Byte) : Except DecodeError Byte :=
  if frame.length ≠ trFrameLen ∨ frame[0]? ≠ some 0x0F then .error .badHeader
  else if frame[14]? ≠ some (trampChecksum frame) then .error .badChecksum
  else if frame[15]? ≠ some 0x00 then .error .badTerminator
  else .ok (frame.getD 1 0)

/-- The 16-bit field at bytes `i`, `i + 1` of a TRAMP frame, little-endian (R55). -/
def trField (frame : List Byte) (i : Nat) : Half := u16le (frame.getD i 0) (frame.getD (i + 1) 0)

/-- A TRAMP request by its code and its frame (R82). A request's reserved bytes are 0, and so is a query's parameter
(R81, R82): another value is no request of this block. -/
def decodeTrRequest (c : Config) (code : Byte) (frame : List Byte) : Except DecodeError Instr :=
  let p := trField frame 2
  if frame ≠ trFrame code p then .error .badOperand
  else if code = trCodeReset then if p = 0 then .ok .trResetQuery else .error .badOperand
  else if code = trCodeStatus then if p = 0 then .ok .trStatusQuery else .error .badOperand
  else if code = trCodeTemp then if p = 0 then .ok .trTempQuery else .error .badOperand
  else if code = trCodeFreq then .ok (.trSetFrequency p)
  else if code = trCodePower then .ok (.trSetPower p)
  else if code = trCodeActive then
    if p = c.trPitInactive then .ok (.trSetActive true)
    else if p = c.trPitActive then .ok (.trSetActive false)
    else .error .badOperand
  else .error (.badCode code)

/-- A TRAMP reply by its code and its frame (R83); bytes that are not listed there are not read (log 21). -/
def decodeTrReply (code : Byte) (frame : List Byte) : Except DecodeError Instr :=
  if code = trCodeReset then
    .ok (.trReplyReset (trField frame 2) (trField frame 4) (trField frame 6))
  else if code = trCodeStatus then
    .ok (.trReplyStatus (trField frame 2) (trField frame 4) (frame.getD 6 0) (frame.getD 7 0 != 0) (trField frame 8))
  else if code = trCodeTemp then .ok (.trReplyTemp (trField frame 6))
  else .error (.badCode code)

/-- The decoder: a word and the unit it is presented to decide the instruction. -/
def decode (c : Config) : InWord → Except DecodeError Instr
  | .hostOp op a b list => decodeHostOp op a b list
  | .saRequest f => do
    let r ← parseSaFrame c f
    decodeSaRequest r.1 r.2
  | .saReply f => do
    let r ← parseSaFrame c f
    return decodeSaReply r.1 r.2
  | .trRequest f => do
    let code ← parseTrFrame f
    decodeTrRequest c code f
  | .trReply f => do
    let code ← parseTrFrame f
    decodeTrReply code f

/-! The encoder. -/

/-- A host operation word; operands that the operation does not use are written 0 (95_test_vectors.md, notation). -/
def hostWord (op : Byte) (a : Half := 0) (b : Byte := 0) (list : List Byte := []) : InWord := .hostOp op a b list

/-- A boolean as the operand `b` (R73). -/
def flagByte (x : Bool) : Byte := if x then 1 else 0

/-- A byte as the operand `a`, its high byte 0 (R73). -/
def bandHalf (band : Byte) : Half := band.setWidth 16

/-- The bytes of a 16-bit TRAMP field (R55). -/
def trFieldBytes (v : Half) : List Byte := [loByte v, hiByte v]

/-- The twelve data bytes of a reset-class reply (R83). -/
def trResetData (mn mx mp : Half) : List Byte :=
  trFieldBytes mn ++ trFieldBytes mx ++ trFieldBytes mp ++ List.replicate 6 0x00

/-- The twelve data bytes of a status-class reply (R83). -/
def trStatusData (freq power : Half) (ctrl : Byte) (pit : Bool) (act : Half) : List Byte :=
  trFieldBytes freq ++ trFieldBytes power ++ [ctrl, flagByte pit] ++ trFieldBytes act ++ List.replicate 4 0x00

/-- The twelve data bytes of a temperature-class reply (R83). -/
def trTempData (t : Half) : List Byte :=
  List.replicate 4 0x00 ++ trFieldBytes t ++ List.replicate 6 0x00

/-- The encoder: the word of a well-formed instruction. -/
def encode (c : Config) : Instr → InWord
  | .init present => hostWord 0x01 (b := flagByte present)
  | .poll rx => hostWord 0x02 (list := rx)
  | .isReady => hostWord 0x03
  | .setFreq mhz => hostWord 0x04 (a := mhz)
  | .setPower mw => hostWord 0x05 (a := mw)
  | .setPit enable => hostWord 0x06 (b := flagByte enable)
  | .setBandCh band channel => hostWord 0x07 (a := bandHalf band) (b := channel)
  | .protocolInUse => hostWord 0x08
  | .switchProtocol sel => hostWord 0x09 (b := flagByte (decide (sel = .tramp)))
  | .bandChToFreq band channel => hostWord 0x0A (a := bandHalf band) (b := channel)
  | .crc8 m => hostWord 0x0B (list := m)
  | .trampChecksum f => hostWord 0x0C (list := f)
  | .regRead id => hostWord 0x0D (b := id)
  | .saValidate m => hostWord 0x0E (list := m)
  | .trampValidate f => hostWord 0x0F (list := f)
  | .saGetSettings => .saRequest saGetSettingsFrame
  | .saSetPower pw => .saRequest (saSetPowerFrame pw)
  | .saSetChannel idx => .saRequest (saSetChannelFrame idx)
  | .saSetFrequency v => .saRequest (saSetFrequencyFrame v)
  | .saSetMode m => .saRequest (saSetModeFrame m)
  | .saReplySettingsV1 p => .saReply (saRawFrame 0x01 p)
  | .saReplySettingsV2 p => .saReply (saRawFrame 0x09 p)
  | .saReplySettingsV21 p => .saReply (saRawFrame 0x11 p)
  | .saReplySetPower p => .saReply (saRawFrame 0x02 p)
  | .saReplySetChannel p => .saReply (saRawFrame 0x03 p)
  | .saReplySetFrequency p => .saReply (saRawFrame 0x04 p)
  | .saReplySetMode p => .saReply (saRawFrame 0x05 p)
  | .saReplyOther code p => .saReply (saRawFrame code p)
  | .trResetQuery => .trRequest trResetQueryFrame
  | .trStatusQuery => .trRequest trStatusQueryFrame
  | .trTempQuery => .trRequest trTempQueryFrame
  | .trSetFrequency mhz => .trRequest (trSetFrequencyFrame mhz)
  | .trSetPower mw => .trRequest (trSetPowerFrame mw)
  | .trSetActive pitOn => .trRequest (trSetActiveFrame c pitOn)
  | .trReplyReset mn mx mp => .trReply (trRawFrame trCodeReset (trResetData mn mx mp))
  | .trReplyStatus freq power ctrl pit act =>
    .trReply (trRawFrame trCodeStatus (trStatusData freq power ctrl pit act))
  | .trReplyTemp t => .trReply (trRawFrame trCodeTemp (trTempData t))

/-! The words of spec/opcode_table.json. -/

/-- Byte `i` of the number `w` (bit 0 is the least significant bit of the first byte). -/
def wordByte (w i : Nat) : Byte := BitVec.ofNat 8 (w / 256 ^ i)

/-- The host operation word whose bits are `w`: `op` is bits 7..0 (the only bits the table gives), then `a`, then `b`,
then the bytes of `list`. DESIGN CHOICE, safe (log 16): R70 gives the record and no bit numbers beyond `op`. -/
def tableHostWord (nbits w : Nat) : InWord :=
  .hostOp (wordByte w 0) (u16le (wordByte w 1) (wordByte w 2)) (wordByte w 3)
    ((List.range (nbits / 8 - 4)).map fun i => wordByte w (i + 4))

/-- The words that the table's bits `w` can stand for: a frame row gives only the frame's command byte or character,
and every operand byte is 0, with the integrity byte that makes it a frame. -/
def tableCandidates (nbits w : Nat) : List InWord :=
  let code := wordByte w 0
  [tableHostWord nbits w, .saRequest (saRawFrame code []), .saReply (saRawFrame code []),
   .trRequest (trFrame code 0), .trReply (trFrame code 0)]

/-- Whether the unit of the word has the word's own row: it decodes, and not as the catch-all reply row, whose mask
is 0. -/
def hasOwnRow (c : Config) (x : InWord) : Bool :=
  match decode c x with
  | .ok (.saReplyOther _ _) => false
  | .ok _ => true
  | .error _ => false

/-- The word for the table's bits `w`: the table reuses one byte value for several forms (R80), so the first form in
the table's order that has a row of its own for the byte is taken, and the catch-all reply row last. DESIGN CHOICE,
safe (log 16). -/
def tableWord (c : Config) (nbits w : Nat) : InWord :=
  ((tableCandidates nbits w).find? (hasOwnRow c)).getD (.saReply (saRawFrame (wordByte w 0) []))

/-- The instruction the decoder reads from an instruction whose bits are `w`, numbered as spec/opcode_table.json
numbers them. -/
def decodeTableWord (nbits w : Nat) : Option Instr :=
  (decode standardConfig (tableWord standardConfig nbits w)).toOption

end Sys2Proof
end

