-- ==== Sys2Proof/Machine/TrFrames.lean ====
section
/-! DEFINITION. TRAMP frames: the request rows (44_tramp_frames.md R134, R135), the reply rows (R141 to R144) and the
receive state machine (R136 to R140). -/

namespace Sys2Proof.Machine

/-! Requests. -/

/-- TR r (reset query) (R134). -/
def execTrResetQuery (s : State) : Out := buildTr (some trResetQueryFrame) s

/-- TR v (status query) (R134). -/
def execTrStatusQuery (s : State) : Out := buildTr (some trStatusQueryFrame) s

/-- TR s (temperature query) (R134). -/
def execTrTempQuery (s : State) : Out := buildTr (some trTempQueryFrame) s

/-- TR F (set frequency) (R135). -/
def execTrSetFrequency (mhz : Half) (s : State) : Out := buildTr (some (trSetFrequencyFrame mhz)) s

/-- TR P (set power) (R135). -/
def execTrSetPower (mw : Half) (s : State) : Out := buildTr (some (trSetPowerFrame mw)) s

/-- TR I (set active) (R135). -/
def execTrSetActive (pitOn : Bool) (s : State) : Out := buildTr (some (trSetActiveFrame s.cfg pitOn)) s

/-! Replies. -/

/-- `trRespReset` (R142): a reply with a zero field is ignored whole. -/
def trRespReset (mn mx mp : Half) (e : TrEngine) : TrEngine :=
  if mn = 0 ∨ mx = 0 ∨ mp = 0 then e
  else
    { e with
      minFreq := mn
      maxFreq := mx
      maxPower := mp
      state := if e.state = .offline then .init else e.state }

/-- `trRespStatus` (R143): the observed fields, the seeding of desired values that are still 0, and the end of
`Init`. -/
def trRespStatus (freq power : Half) (ctrl : Byte) (pit : Bool) (act : Half) (e : TrEngine) : TrEngine :=
  { e with
    obsFreq := freq
    obsPower := power
    ctrlFlags := ctrl
    obsPit := pit
    actPower := act
    desFreq := if e.desFreq = 0 then freq else e.desFreq
    desPower := if e.desPower = 0 then power else e.desPower
    state := if e.state = .init then .monFreqPwrPit else e.state
    ready := if e.state = .init then true else e.ready }

/-- `trRespTemp` (R144): 0 is "not valid". -/
def trRespTemp (t : Half) (e : TrEngine) : TrEngine := if t ≠ 0 then { e with temp := t } else e

/-- `trDispatch(b)` of an accepted frame (R141), its fields at the offsets of 30_encoding.md R83. No other code reaches
it (R138). -/
def trDispatch (b : List Byte) (e : TrEngine) : TrEngine :=
  match decodeTrReply (b.getD 1 0) b with
  | .ok (.trReplyReset mn mx mp) => trRespReset mn mx mp e
  | .ok (.trReplyStatus freq power ctrl pit act) => trRespStatus freq power ctrl pit act e
  | .ok (.trReplyTemp t) => trRespTemp t e
  | _ => e

/-- TR reply r (reset-class) (R142). -/
def execTrReplyReset (minFreq maxFreq maxPower : Half) (s : State) : Out :=
  onTr (fun e => .ok (trRespReset minFreq maxFreq maxPower e)) s

/-- TR reply v (status-class) (R143). -/
def execTrReplyStatus (freq power : Half) (ctrl : Byte) (pit : Bool) (actPower : Half) (s : State) : Out :=
  onTr (fun e => .ok (trRespStatus freq power ctrl pit actPower e)) s

/-- TR reply s (temperature-class) (R144). -/
def execTrReplyTemp (temp : Half) (s : State) : Out := onTr (fun e => .ok (trRespTemp temp e)) s

/-! The receiver: `trRxByte(d)` in each receive state. -/

/-- The reply codes of R83, which R138 accepts. -/
def trReplyCodes : List Byte := [trCodeReset, trCodeStatus, trCodeTemp]

/-- `WaitHeader` (R137): another byte is skipped. -/
def trRxHeader (d : Byte) (e : TrEngine) : Except Fault TrEngine :=
  if d = 0x0F then do
    let buf ← memWrite e.rxBuf 0 d
    return { e with rxBuf := buf, rxCount := 1, rx := .waitResponseCode }
  else .ok e

/-- `WaitResponseCode` (R138): a rejected byte is not examined again as a header. -/
def trRxCode (d : Byte) (e : TrEngine) : Except Fault TrEngine :=
  if d ∈ trReplyCodes then do
    let buf ← memWrite e.rxBuf 1 d
    return { e with rxBuf := buf, rxCount := 2, rx := .accumulateData }
  else .ok { e with rxCount := 0, rx := .waitHeader }

/-- `trValidate()` (R140): the receiver resets, then the frame is dispatched or counted. -/
def trValidate (c : Config) (e : TrEngine) : Except Fault TrEngine := do
  let e := { e with rx := .waitHeader, rxCount := 0 }
  let chk ← memRead e.rxBuf 14
  let term ← memRead e.rxBuf 15
  if chk = trampChecksum e.rxBuf ∧ term = 0x00 then return trDispatch e.rxBuf e
  else return { e with badFrame := count c e.badFrame }

/-- `AccumulateData` (R139). -/
def trRxData (c : Config) (d : Byte) (e : TrEngine) : Except Fault TrEngine := do
  let buf ← memWrite e.rxBuf e.rxCount d
  let e := { e with rxBuf := buf, rxCount := e.rxCount + 1 }
  if e.rxCount = trFrameLen then trValidate c e else return e

/-- `trRxByte(d)` (R137 to R140). -/
def trRxByte (c : Config) (d : Byte) (e : TrEngine) : Except Fault TrEngine :=
  match e.rx with
  | .waitHeader => trRxHeader d e
  | .waitResponseCode => trRxCode d e
  | .accumulateData => trRxData c d e

/-- The receiver over an RX list, one byte at a time in arrival order (R136, 20_memory.md R63). -/
def trRxList (c : Config) : List Byte → TrEngine → Except Fault TrEngine
  | [], e => .ok e
  | d :: ds, e => do
    let e ← trRxByte c d e
    trRxList c ds e

end Sys2Proof.Machine
end

