-- ==== Sys2Proof/Machine/TrEngine.lean ====
section
/-! DEFINITION. The TRAMP engine: the per-poll step, the convergence check and the setters (45_tramp_engine.md R145 to
R153). -/

namespace Sys2Proof.Machine

/-- `trSend(c, p)` of the frame `f` (R145): the frame leaves at once and `lastReq` is stamped. -/
def trSend (now : Nat) (f : List Byte) (e : TrEngine) : TrEngine × Option (List Byte) :=
  ({ e with lastReq := some now }, some f)

/-- A status query by the state machine, which also stamps `lastStatus` (R146). -/
def trSendStatus (now : Nat) (e : TrEngine) : TrEngine × Option (List Byte) :=
  trSend now trStatusQueryFrame { e with lastStatus := some now }

/-- `trConverge()` (R147): the corrective frame for the first of frequency, power and pit mode that differs. Frequency
and power are skipped while race-locked. -/
def trCorrection (c : Config) (e : TrEngine) : Option (List Byte) :=
  if !raceLocked c e ∧ e.desFreq ≠ 0 ∧ e.desFreq ≠ e.obsFreq then some (trSetFrequencyFrame e.desFreq)
  else if !raceLocked c e ∧ e.desPower ≠ 0 ∧ e.desPower ≠ e.obsPower then some (trSetPowerFrame e.desPower)
  else if e.desPit ≠ .unset ∧ decide (e.desPit = .on) ≠ e.obsPit then
    some (trSetActiveFrame c (decide (e.desPit = .on)))
  else none

/-- The end of the `MonFreqPwrPit` step: the periodic status query (R146). -/
def trMonitorPoll (c : Config) (now : Nat) (e : TrEngine) : TrEngine × Option (List Byte) :=
  if due c now e.lastStatus trStatusPeriodMs then trSendStatus now { e with state := .monTemp }
  else (e, none)

/-- The `MonFreqPwrPit` step once `TRAMP_MIN_PERIOD_MS` has passed (R146): with budget left, one correction, or a reset
of the budget when nothing differs; then the periodic status query. -/
def trMonitor (c : Config) (now : Nat) (e : TrEngine) : TrEngine × Option (List Byte) :=
  if 0 < e.retry then
    match trCorrection c e with
    | some f => trSend now f { e with retry := e.retry - 1, state := .config }
    | none => trMonitorPoll c now { e with retry := trMaxRetry }
  else trMonitorPoll c now e

/-- `trStep()` (R146). The second component is the frame sent, if one was. -/
def trStep (c : Config) (now : Nat) (e : TrEngine) : TrEngine × Option (List Byte) :=
  match e.state with
  | .offline =>
    if due c now e.lastReq c.trInitPeriodMs then trSend now trResetQueryFrame e else (e, none)
  | .init =>
    if due c now e.lastReq c.trInitPeriodMs then trSendStatus now e else (e, none)
  | .monFreqPwrPit =>
    if due c now e.lastReq trMinPeriodMs then trMonitor c now e else (e, none)
  | .monTemp =>
    if due c now e.lastReq trMinPeriodMs then trSend now trTempQueryFrame { e with state := .monFreqPwrPit }
    else (e, none)
  | .config =>
    if due c now e.lastReq trMinPeriodMs then trSendStatus now { e with state := .monFreqPwrPit }
    else (e, none)

/-- The TRAMP branch of `POLL` (46_host_ops.md R161, 20_memory.md R65): receive, then step. -/
def trPoll (c : Config) (now : Nat) (rx : List Byte) (e : TrEngine) :
    Except Fault (TrEngine × Option (List Byte)) := do
  let e ← trRxList c rx e
  return trStep c now e

/-- A frequency or power write: sent at once unless race-locked, and then suppressed silently (R150, R151). -/
def trWrite (c : Config) (now : Nat) (f : List Byte) (e : TrEngine) : TrEngine × Option (List Byte) :=
  if raceLocked c e then (e, none) else trSend now f e

/-- TRAMP `setFrequency(f)` (R150); `none` is `fail`. -/
def trSetFrequency (c : Config) (now : Nat) (f : Half) (e : TrEngine) : Option (TrEngine × Option (List Byte)) :=
  if freqInRange f then
    some (trWrite c now (trSetFrequencyFrame f) { e with desFreq := f, retry := trMaxRetry })
  else none

/-- TRAMP `setPower(mw)` (R151): every value is accepted. -/
def trSetPower (c : Config) (now : Nat) (mw : Half) (e : TrEngine) : Option (TrEngine × Option (List Byte)) :=
  some (trWrite c now (trSetPowerFrame mw) { e with desPower := mw, retry := trMaxRetry })

/-- The desired pit mode that `setPitMode(enable)` records (R152). -/
def desPitOf (enable : Bool) : DesPit := if enable then .on else .off

/-- TRAMP `setPitMode(enable)` (R152): never suppressed by the race lock. -/
def trSetPitMode (c : Config) (now : Nat) (enable : Bool) (e : TrEngine) :
    Option (TrEngine × Option (List Byte)) :=
  some (trSend now (trSetActiveFrame c enable) { e with desPit := desPitOf enable, retry := trMaxRetry })

end Sys2Proof.Machine
end

