-- ==== Sys2Proof/Machine/HostOps.lean ====
section
/-! DEFINITION. The Controller operations (46_host_ops.md R158 to R166). -/

namespace Sys2Proof.Machine

/-- Creates the engine of `S.proto` with its transport configuration (R158). -/
def createEngine (s : State) : State :=
  match s.proto with
  | .sa => txConfigure saBaud 8 2 (setEngine (.sa (freshSa s.cfg)) s)
  | .tramp => txConfigure trBaud 8 1 (setEngine (.tramp freshTr) s)

/-- INIT (R158): `fail` without a transport; otherwise a fresh engine replaces the slot's. -/
def execInit (present : Bool) (s : State) : Out :=
  if present then .next (retOk (createEngine s)) else .next (retFail s)

/-- SWITCH_PROTOCOL (R159): the engine is discarded even if the protocol stays the same. -/
def execSwitchProtocol (sel : Proto) (s : State) : Out :=
  .next (retOk (setEngine .none { s with proto := sel }))

/-- PROTOCOL_IN_USE (R160). -/
def execProtocolInUse (s : State) : Out := .next (ret true (protoCode s.proto) s)

/-- POLL (R161): `fail` with no engine, and then the RX bytes are lost. -/
def execPoll (rx : List Byte) (s : State) : Out :=
  match s.engine with
  | .none => .next (retFail s)
  | .sa e =>
    match saPoll s.cfg s.now rx e with
    | .error f => .fault f
    | .ok (e', f) => .next (retOk (txSent f (setEngine (.sa e') s)))
  | .tramp e =>
    match trPoll s.cfg s.now rx e with
    | .error f => .fault f
    | .ok (e', f) => .next (retOk (txSent f (setEngine (.tramp e') s)))

/-- IS_READY (R162). -/
def execIsReady (s : State) : Out :=
  match s.engine with
  | .none => .next (retFail s)
  | .sa e => .next (ret true (flagWord (saReady e)) s)
  | .tramp e => .next (ret true (flagWord e.ready) s)

/-- SET_FREQ (R163). -/
def execSetFreq (mhz : Half) (s : State) : Out :=
  match s.engine with
  | .none => .next (retFail s)
  | .sa e => finishSaSetter (saSetFrequency mhz e) s
  | .tramp e => finishTrSetter (trSetFrequency s.cfg s.now mhz e) s

/-- SET_POWER (R164). -/
def execSetPower (mw : Half) (s : State) : Out :=
  match s.engine with
  | .none => .next (retFail s)
  | .sa e => finishSaSetter (saSetPower s.cfg mw e) s
  | .tramp e => finishTrSetter (trSetPower s.cfg s.now mw e) s

/-- SET_PIT (R165). -/
def execSetPit (enable : Bool) (s : State) : Out :=
  match s.engine with
  | .none => .next (retFail s)
  | .sa e => finishSaSetter (saSetPitMode enable e) s
  | .tramp e => finishTrSetter (trSetPitMode s.cfg s.now enable e) s

/-- SET_BANDCH (R166): on a TRAMP engine it fails (45_tramp_engine.md R153). -/
def execSetBandCh (band channel : Byte) (s : State) : Out :=
  match s.engine with
  | .none => .next (retFail s)
  | .sa e => finishSaSetter (saSetBandCh band channel e) s
  | .tramp _ => .next (retFail s)

end Sys2Proof.Machine
end

