-- ==== Sys2Proof/Machine/Integrity.lean ====
section
/-! DEFINITION. The standalone integrity operations (41_checksum.md R92, R93, R96, R97). They work with or without an
engine and write nothing. -/

namespace Sys2Proof.Machine

/-- CRC8 (R92). -/
def execCrc8 (m : List Byte) (s : State) : Out := .next (ret true (zext (crc8 m)) s)

/-- SA_VALIDATE (R93): the computed CRC in bits 15..8, the match in bit 0; `fail` on an empty list. -/
def execSaValidate (m : List Byte) (s : State) : Out :=
  match m.getLast? with
  | none => .next (retFail s)
  | some t =>
    let c := crc8 m.dropLast
    .next (ret true ((zext c <<< 8) ||| flagWord (decide (c = t))) s)

/-- TRAMP_CHECKSUM (R96): `fail` unless the list is 16 bytes long. -/
def execTrampChecksum (f : List Byte) (s : State) : Out :=
  if f.length = trFrameLen then .next (ret true (zext (trampChecksum f)) s) else .next (retFail s)

/-- TRAMP_VALIDATE (R97): the computed checksum in bits 15..8, terminator, checksum and both in bits 2, 1, 0; `fail`
unless the list is 16 bytes long. -/
def execTrampValidate (f : List Byte) (s : State) : Out :=
  if f.length = trFrameLen then
    let c := trampChecksum f
    let sok := decide (f[14]? = some c)
    let tok := decide (f[15]? = some 0x00)
    .next (ret true ((zext c <<< 8) ||| (flagWord tok <<< 2) ||| (flagWord sok <<< 1) ||| flagWord (sok && tok)) s)
  else .next (retFail s)

end Sys2Proof.Machine
end

