-- ==== Sys2Proof/Machine/Dispatch.lean ====
section
/-! DEFINITION. One arm per instruction, each a direct call of its meaning. -/

namespace Sys2Proof.Machine

def exec (i : Instr) (s : State) : Host.Outcome State Fault Refusal :=
  match i with
  | .init present => Sys2Proof.Machine.execInit present s
  | .poll rx => Sys2Proof.Machine.execPoll rx s
  | .isReady => Sys2Proof.Machine.execIsReady s
  | .setFreq mhz => Sys2Proof.Machine.execSetFreq mhz s
  | .setPower mw => Sys2Proof.Machine.execSetPower mw s
  | .setPit enable => Sys2Proof.Machine.execSetPit enable s
  | .setBandCh band channel => Sys2Proof.Machine.execSetBandCh band channel s
  | .protocolInUse => Sys2Proof.Machine.execProtocolInUse s
  | .switchProtocol sel => Sys2Proof.Machine.execSwitchProtocol sel s
  | .bandChToFreq band channel => Sys2Proof.Machine.execBandChToFreq band channel s
  | .crc8 m => Sys2Proof.Machine.execCrc8 m s
  | .trampChecksum f => Sys2Proof.Machine.execTrampChecksum f s
  | .regRead id => Sys2Proof.Machine.execRegRead id s
  | .saValidate m => Sys2Proof.Machine.execSaValidate m s
  | .trampValidate f => Sys2Proof.Machine.execTrampValidate f s
  | .saGetSettings => Sys2Proof.Machine.execSaGetSettings s
  | .saSetPower pw => Sys2Proof.Machine.execSaSetPower pw s
  | .saSetChannel idx => Sys2Proof.Machine.execSaSetChannel idx s
  | .saSetFrequency v => Sys2Proof.Machine.execSaSetFrequency v s
  | .saSetMode m => Sys2Proof.Machine.execSaSetMode m s
  | .saReplySettingsV1 p => Sys2Proof.Machine.execSaReplySettingsV1 p s
  | .saReplySettingsV2 p => Sys2Proof.Machine.execSaReplySettingsV2 p s
  | .saReplySettingsV21 p => Sys2Proof.Machine.execSaReplySettingsV21 p s
  | .saReplySetPower p => Sys2Proof.Machine.execSaReplySetPower p s
  | .saReplySetChannel p => Sys2Proof.Machine.execSaReplySetChannel p s
  | .saReplySetFrequency p => Sys2Proof.Machine.execSaReplySetFrequency p s
  | .saReplySetMode p => Sys2Proof.Machine.execSaReplySetMode p s
  | .saReplyOther code p => Sys2Proof.Machine.execSaReplyOther code p s
  | .trResetQuery => Sys2Proof.Machine.execTrResetQuery s
  | .trStatusQuery => Sys2Proof.Machine.execTrStatusQuery s
  | .trTempQuery => Sys2Proof.Machine.execTrTempQuery s
  | .trSetFrequency mhz => Sys2Proof.Machine.execTrSetFrequency mhz s
  | .trSetPower mw => Sys2Proof.Machine.execTrSetPower mw s
  | .trSetActive pitOn => Sys2Proof.Machine.execTrSetActive pitOn s
  | .trReplyReset mn mx mp => Sys2Proof.Machine.execTrReplyReset mn mx mp s
  | .trReplyStatus freq power ctrl pit act => Sys2Proof.Machine.execTrReplyStatus freq power ctrl pit act s
  | .trReplyTemp temp => Sys2Proof.Machine.execTrReplyTemp temp s

end Sys2Proof.Machine
end

