-- ==== Sys2Proof/Machine/Fetch.lean ====
section
/-! DEFINITION. What one step is given: the oldest stimulus that the host has presented (30_encoding.md R70, 20_memory.md
R62), its time sampled (10_state.md R23), and its word decoded. -/

namespace Sys2Proof.Machine

/-- What there is to perform: nothing, an instruction on the state with the stimulus taken, or a word that is none. -/
inductive Fetched where
  | idle
  | run (i : Instr) (s : State)
  | rejected (x : InWord) (s : State)
deriving DecidableEq, Repr

/-- Takes a stimulus: it leaves the input, `now` is sampled, and the outputs of the step before are cleared
(log 2, log 3). -/
def takeStimulus (now : Nat) (rest : List Stimulus) (s : State) : State :=
  { s with input := rest, now := timeInput s.cfg now, result := none, built := none }

/-- Takes and decodes the oldest stimulus. -/
def fetch (s : State) : Fetched :=
  match s.input with
  | [] => .idle
  | x :: rest =>
    match decode s.cfg x.word with
    | .ok i => .run i (takeStimulus x.now rest s)
    | .error _ => .rejected x.word (takeStimulus x.now rest s)

/-- A word that is no instruction: an illegal `op` returns `fail` and changes nothing (R72, 60_exceptions.md R169 g);
bytes that are no reply are received, and counted or dropped as R79 and R84 say; and bytes that are no request give a
frame, or none, that no rule states. DESIGN CHOICE, safe (log 6): the last, a free value. -/
def rejectWord (x : InWord) (s : State) : Out :=
  match x with
  | .hostOp _ _ _ _ => .next (retFail s)
  | .saRequest f => buildSa (Config.unstatedFrame f) s
  | .saReply f => onSa (saRxList s.cfg f) s
  | .trRequest f => buildTr (Config.unstatedFrame f) s
  | .trReply f => onTr (trRxList s.cfg f) s

/-- Presents a word as the next stimulus, at the time `now` already stands at. -/
def presentWord (x : InWord) (s : State) : State := { s with input := ⟨s.now, x⟩ :: s.input }

end Sys2Proof.Machine
end

