-- ==== Sys2Proof/Machine/Step.lean ====
section
/-! DEFINITION. One step of the block: one host operation, to completion (46_host_ops.md R154, 20_memory.md R58). -/

namespace Sys2Proof.Machine

/-- One step: the oldest stimulus is performed. With none, nothing happens (R154, R178): the block waits for the host
(70_reset_and_hazards.md R180). -/
def step (s : State) : Host.Outcome State Fault Refusal :=
  match fetch s with
  | .idle => .next s
  | .run i s' => exec i s'
  | .rejected x s' => rejectWord x s'

/-- The state with the word of spec/opcode_table.json whose bits are `w` presented as the next stimulus (log 16,
log 17). -/
def State.withFetchWord (s : State) (nbits w : Nat) : State := presentWord (tableWord s.cfg nbits w) s

end Sys2Proof.Machine
end

