-- ==== Sys2Proof/Safety.lean ====
section
/-! DEFINITION. What the statements speak of: the invariant of the state (the ranges and relations of 10_state.md R29 to
R44), the requests the block sends and the shape of the TX stream (30_encoding.md R76, R82; 46_host_ops.md R156), the
queue as a list (R32), the frame polynomial (41_checksum.md R90), the state that no operation can observe (R29, R32, R47)
and what the host owes (70_reset_and_hazards.md R183). -/

namespace Sys2Proof.Machine

/-! The queue. -/

/-- The live entries of the queue, the front first (R32). -/
def queueEntries (q : SaQueue) : List Slot :=
  (List.range q.count).filterMap fun k => q.slots[slotIndex q k]?

/-- The payload of a SmartAudio frame (30_encoding.md R74). -/
def saPayload (f : List Byte) : List Byte := (f.drop 4).dropLast

/-- The requests that the block itself sends: the rows of 30_encoding.md R76 and R82, with a channel index 0..39 (R76), a
frequency in the band or the pit-frequency query (43_sa_engine.md R126, R128) and a mode byte 0x01 or 0x04 (R77, R131). -/
def isSentRequest (c : Config) : Instr → Bool
  | .init _ => false
  | .poll _ => false
  | .isReady => false
  | .setFreq _ => false
  | .setPower _ => false
  | .setPit _ => false
  | .setBandCh _ _ => false
  | .protocolInUse => false
  | .switchProtocol _ => false
  | .bandChToFreq _ _ => false
  | .crc8 _ => false
  | .trampChecksum _ => false
  | .regRead _ => false
  | .saValidate _ => false
  | .trampValidate _ => false
  | .saGetSettings => true
  | .saSetPower _ => true
  | .saSetChannel idx => decide (idx.toNat ≤ 39)
  | .saSetFrequency v => freqInRange v || decide (v = c.saPitFlag)
  | .saSetMode m => decide (m = 0x01 ∨ m = 0x04)
  | .saReplySettingsV1 _ => false
  | .saReplySettingsV2 _ => false
  | .saReplySettingsV21 _ => false
  | .saReplySetPower _ => false
  | .saReplySetChannel _ => false
  | .saReplySetFrequency _ => false
  | .saReplySetMode _ => false
  | .saReplyOther _ _ => false
  | .trResetQuery => true
  | .trStatusQuery => true
  | .trTempQuery => true
  | .trSetFrequency _ => true
  | .trSetPower _ => true
  | .trSetActive _ => true
  | .trReplyReset _ _ _ => false
  | .trReplyStatus _ _ _ _ _ => false
  | .trReplyTemp _ => false

/-- A frame presented to the request unit of a protocol. -/
def requestWord (p : Proto) (f : List Byte) : InWord :=
  match p with
  | .sa => .saRequest f
  | .tramp => .trRequest f

/-- The bytes are a frame of the protocol, layout, integrity byte and all, and one that the block sends. -/
def isRequestOf (c : Config) (f : List Byte) (p : Proto) : Bool :=
  match decode c (requestWord p f) with
  | .ok i => isSentRequest c i
  | .error _ => false

/-- A slot holds a request that the block sends, and its id is the command byte's (R32, R75). -/
def slotValid (c : Config) (x : Slot) : Bool :=
  isRequestOf c x.bytes .sa && decide (x.bytes.getD 2 0 = saRequestByte x.id)

/-- The queue has its four slots, its head and its occupancy are in range, and every live entry is valid (R32). -/
abbrev SaQueue.Wf (c : Config) (q : SaQueue) : Prop :=
  q.slots.length = saQueueCap ∧ q.head < saQueueCap ∧ q.count ≤ saQueueCap ∧
  ∀ x ∈ queueEntries q, slotValid c x

/-! The engines. -/

/-- The receive registers agree with the receive state (R29; 42_sa_frames.md R109, R110). -/
abbrev SaEngine.RxWf (c : Config) (e : SaEngine) : Prop :=
  e.rxData.length = c.saMaxPayload ∧ e.rxCount.toNat ≤ e.rxLen.toNat ∧ e.rxLen.toNat ≤ c.saMaxPayload ∧
  (e.rx = .waitData → e.rxCount.toNat < e.rxLen.toNat) ∧ (e.rx = .waitCrc → e.rxCount = e.rxLen)

/-- An outstanding id is the front entry's, and its frame has been sent (R33, R34). -/
abbrev SaEngine.OutstandingWf (e : SaEngine) : Prop :=
  ∀ o, e.outstanding = some o → (queueEntries e.q).head?.map (·.id) = some o ∧ e.lastTx ≠ none

/-- A time stamp has `TIME_WIDTH` bits (R8). -/
abbrev StampWf (c : Config) (t : Option Nat) : Prop := ∀ v, t = some v → v < 2 ^ c.timeWidth

/-- The stamp and the counters are in their widths (R8, R34, R35). -/
abbrev SaEngine.WidthsWf (c : Config) (e : SaEngine) : Prop :=
  StampWf c e.lastTx ∧ e.badPreamble < 2 ^ c.cntWidth ∧ e.badLength < 2 ^ c.cntWidth ∧ e.crcErr < 2 ^ c.cntWidth

/-- The SmartAudio engine's invariant; the version is known once initialization has gone past `WaitSettings`
(43_sa_engine.md R126). -/
abbrev SaEngine.Wf (c : Config) (e : SaEngine) : Prop :=
  e.q.Wf c ∧ e.RxWf c ∧ e.OutstandingWf ∧ e.WidthsWf c ∧
  (e.phase = .waitPitFrequency ∨ e.phase = .done → e.version ≠ .unknown)

/-- The receive registers agree with the receive state (R37; 44_tramp_frames.md R137 to R139). -/
abbrev TrEngine.RxWf (e : TrEngine) : Prop :=
  e.rxBuf.length = trFrameLen ∧ (e.rx = .waitHeader → e.rxCount = 0) ∧ (e.rx = .waitResponseCode → e.rxCount = 1) ∧
  (e.rx = .accumulateData → 2 ≤ e.rxCount ∧ e.rxCount < trFrameLen ∧ e.rxBuf.getD 1 0 ∈ trReplyCodes)

/-- The stamps and the counter are in their widths (R8, R43, R44). -/
abbrev TrEngine.WidthsWf (c : Config) (e : TrEngine) : Prop :=
  StampWf c e.lastReq ∧ StampWf c e.lastStatus ∧ e.badFrame < 2 ^ c.cntWidth

/-- The TRAMP engine's invariant: the budget's range (R39) and `ready` once, and only once, `Init` has been left (R38). -/
abbrev TrEngine.Wf (c : Config) (e : TrEngine) : Prop :=
  e.RxWf ∧ e.WidthsWf c ∧ e.retry ≤ trMaxRetry ∧ e.ready = decide (e.state ≠ .offline ∧ e.state ≠ .init)

/-- The engine in the slot is of the selected protocol and keeps its own invariant (R27). -/
def EngineWf (c : Config) (p : Proto) (g : Engine) : Prop :=
  match g with
  | .none => True
  | .sa e => p = .sa ∧ e.Wf c
  | .tramp e => p = .tramp ∧ e.Wf c

/-- The invariant of the state. -/
def State.Inv (s : State) : Prop :=
  s.cfg.Valid ∧ s.now < 2 ^ s.cfg.timeWidth ∧ EngineWf s.cfg s.proto s.engine

/-! The TX stream. -/

/-- The protocol whose transport configuration an event requests (46_host_ops.md R158). -/
def configuredProto : TxEvent → Option Proto
  | .configure baud dataBits stopBits .none =>
    if baud = saBaud ∧ dataBits = 8 ∧ stopBits = 2 then some .sa
    else if baud = trBaud ∧ dataBits = 8 ∧ stopBits = 1 then some .tramp
    else none
  | .group _ => none
  | .flush => none

/-- Reads a TX stream from the protocol last configured, and gives the protocol configured at its end: configuration
requests, and groups of the stabilization byte and a request of the configured protocol, each followed by its flush
(R156). None when the stream is anything else. -/
def txScan (c : Config) : Option Proto → List TxEvent → Option (Option Proto)
  | p, [] => some p
  | _, .configure baud dataBits stopBits parity :: r =>
    match configuredProto (.configure baud dataBits stopBits parity) with
    | some p => txScan c (some p) r
    | none => none
  | p, .group (z :: f) :: .flush :: r =>
    if z = 0x00 ∧ p.any (isRequestOf c f) then txScan c p r else none
  | _, _ => none

/-- The TX stream reads well, and it is the engine's protocol that it last configured. -/
def State.TxWf (s : State) : Prop :=
  ∃ p, txScan s.cfg none s.tx = some p ∧
    match s.engine with
    | .none => True
    | .sa _ => p = some .sa
    | .tramp _ => p = some .tramp

/-! Classes of instructions. -/

/-- The host operations (30_encoding.md R71). -/
def isHostOp : Instr → Bool
  | .init _ => true
  | .poll _ => true
  | .isReady => true
  | .setFreq _ => true
  | .setPower _ => true
  | .setPit _ => true
  | .setBandCh _ _ => true
  | .protocolInUse => true
  | .switchProtocol _ => true
  | .bandChToFreq _ _ => true
  | .crc8 _ => true
  | .trampChecksum _ => true
  | .regRead _ => true
  | .saValidate _ => true
  | .trampValidate _ => true
  | .saGetSettings => false
  | .saSetPower _ => false
  | .saSetChannel _ => false
  | .saSetFrequency _ => false
  | .saSetMode _ => false
  | .saReplySettingsV1 _ => false
  | .saReplySettingsV2 _ => false
  | .saReplySettingsV21 _ => false
  | .saReplySetPower _ => false
  | .saReplySetChannel _ => false
  | .saReplySetFrequency _ => false
  | .saReplySetMode _ => false
  | .saReplyOther _ _ => false
  | .trResetQuery => false
  | .trStatusQuery => false
  | .trTempQuery => false
  | .trSetFrequency _ => false
  | .trSetPower _ => false
  | .trSetActive _ => false
  | .trReplyReset _ _ _ => false
  | .trReplyStatus _ _ _ _ _ => false
  | .trReplyTemp _ => false

/-- The operations that end or replace an engine (46_host_ops.md R158, R159). -/
def replacesEngine (i : Instr) : Bool :=
  match i with
  | .init present => present
  | .switchProtocol _ => true
  | _ => false

/-! The frame polynomial. -/

open Polynomial in
/-- The polynomial over GF(2) of a list of bits, the first the highest power. -/
noncomputable def bitsPoly (l : List Bool) : (ZMod 2)[X] :=
  l.foldl (fun p b => p * X + C (if b then 1 else 0)) 0

/-- A byte's bits, the most significant first (R90). -/
def byteBits (b : Byte) : List Bool := (List.range 8).map fun i => b.getMsbD i

/-- The polynomial of a byte string, its first bit on the wire the highest power (R90). -/
noncomputable def wirePoly (m : List Byte) : Polynomial (ZMod 2) := bitsPoly (m.flatMap byteBits)

open Polynomial in
/-- The generator `x^8 + x^7 + x^6 + x^4 + x^2 + 1` (R90). -/
noncomputable def crcGenerator : (ZMod 2)[X] := X ^ 8 + X ^ 7 + X ^ 6 + X ^ 4 + X ^ 2 + 1

/-! What no operation can observe. -/

/-- Two SmartAudio engines that agree on everything but the contents of queue slots that hold no live entry (R32). -/
def SaEngine.SameButDeadSlots (e e' : SaEngine) : Prop :=
  e' = { e with q := { e.q with slots := e'.q.slots } } ∧ queueEntries e'.q = queueEntries e.q ∧
  e'.q.slots.length = e.q.slots.length

/-- Two states that agree on everything but dead queue slots. -/
def State.SameButDeadSlots (s s' : State) : Prop :=
  match s.engine, s'.engine with
  | .sa e, .sa e' => s' = { s with engine := .sa e' } ∧ e.SameButDeadSlots e'
  | _, _ => s' = s

/-! What the host owes (70_reset_and_hazards.md R183). -/

/-- A byte that arrives on the RX line; `loopback` marks one that the block itself has transmitted. -/
structure RxByte where
  byte : Byte
  loopback : Bool
deriving DecidableEq, Repr

/-- One operation and what happens around it outside the block: the host's millisecond count, unwrapped; the bytes that
have arrived since the operation before, oldest first; the configuration the port runs with; and what the transport has
put on the line when the operation returns. -/
structure HostEvent where
  stim : Stimulus
  ms : Nat
  arrived : List RxByte
  port : Option TxEvent
  sent : List Byte
deriving DecidableEq, Repr

/-- One operation of a run, with the states before and after it. -/
structure HostOp where
  before : State
  event : HostEvent
  after : State
deriving DecidableEq, Repr

/-- The operations of a run, in order; it ends where a step does not answer. -/
def hostTrace (s : State) : List HostEvent → List HostOp
  | [] => []
  | x :: r =>
    match step s with
    | .next t => ⟨s, x, t⟩ :: hostTrace t r
    | _ => []

/-- The RX list of a POLL word (30_encoding.md R71). -/
def pollList : InWord → Option (List Byte)
  | .hostOp op _ _ list => if op = 0x02 then some list else none
  | .saRequest _ => none
  | .saReply _ => none
  | .trRequest _ => none
  | .trReply _ => none

/-- Whether the operation is a POLL. -/
def HostEvent.isPoll (x : HostEvent) : Bool := (pollList x.stim.word).isSome

/-- The time stamps that an engine holds (60_exceptions.md R175). -/
def engineStamps : Engine → List (Option Nat)
  | .none => []
  | .sa e => [e.lastTx]
  | .tramp e => [e.lastReq, e.lastStatus]

/-- Stamp `k` is not the same after the operation as before it. -/
def HostOp.changesStamp (o : HostOp) (k : Nat) : Prop :=
  (engineStamps o.after.engine)[k]? ≠ (engineStamps o.before.engine)[k]?

/-- The TX events of the operation. -/
def HostOp.emitted (o : HostOp) : List TxEvent := o.after.tx.drop o.before.tx.length

/-- The bytes of the groups among TX events, in order. -/
def groupBytes (l : List TxEvent) : List Byte :=
  l.flatMap fun x =>
    match x with
    | .group b => b
    | .flush => []
    | .configure _ _ _ _ => []

/-- The configuration last requested in a TX stream. -/
def lastConfigured (l : List TxEvent) : Option TxEvent := (l.filter fun x => (configuredProto x).isSome).getLast?

/-- Each POLL is given exactly the bytes that have arrived and that no POLL before it was given, in order. -/
def deliversRx : List Byte → List HostEvent → Prop
  | _, [] => True
  | waiting, x :: r =>
    match pollList x.stim.word with
    | some list => list = waiting ++ x.arrived.map (·.byte) ∧ deliversRx [] r
    | none => deliversRx (waiting ++ x.arrived.map (·.byte)) r

/-- The premises of R183, one field for each "owes" entry, on the operations `l` from the state `s`; `cadence` bounds the
time between two POLLs. No statement but those that name it takes them: the others hold for every host (log 20). -/
structure HostDuties (cadence : Nat) (s : State) (l : List HostEvent) : Prop where
  /-- any operation: on the host command port, one at a time, each finished before the next -/
  oneAtATime : s.input = l.map (·.stim) ∧ ∀ x ∈ l, ∃ op a b list, x.stim.word = .hostOp op a b list
  /-- any operation: `now` is one monotonic millisecond counter -/
  clock : (∀ x ∈ l, timeInput s.cfg x.stim.now = timeInput s.cfg x.ms) ∧ l.Pairwise fun x y => x.ms ≤ y.ms
  /-- any operation: every interval that the block times is shorter than `2^TIME_WIDTH` ms (R191) -/
  intervals : ∀ pre o mid p post k v, hostTrace s l = pre ++ o :: (mid ++ p :: post) → o.changesStamp k →
    (engineStamps o.after.engine)[k]? = some (some v) → (∀ m ∈ mid, ¬ m.changesStamp k) → p.event.isPoll = true →
    p.event.ms - o.event.ms < 2 ^ s.cfg.timeWidth
  /-- INIT: the port has the configuration last requested when a frame is sent -/
  configApplied : ∀ o ∈ hostTrace s l, groupBytes o.emitted ≠ [] →
    o.event.port = lastConfigured o.before.tx
  /-- POLL: every byte received since the POLL before, in order, each byte once -/
  rxDelivered : deliversRx [] l
  /-- POLL: no loopback of TX bytes (R185) -/
  noLoopback : ∀ x ∈ l, ∀ b ∈ x.arrived, b.loopback = false
  /-- POLL: a steady cadence -/
  steadyCadence : ∀ pre x mid y post, l = pre ++ x :: (mid ++ y :: post) → x.isPoll = true → y.isPoll = true →
    (∀ m ∈ mid, m.isPoll = false) → y.ms ≤ x.ms + cadence
  /-- TX event: the bytes are transmitted in order, and the flush completes, before the operation returns -/
  txSentInOrder : ∀ o ∈ hostTrace s l, o.event.sent = groupBytes o.emitted

end Sys2Proof.Machine
end

