-- ==== Sys2Proof/Certificates/Slice0/Obligations.lean ====
section
/-! DEFINITION. The statements for the provers, from the numbered rules of the spec. -/

open Sys2Proof Sys2Proof.Machine

/-! Reset and the engine's lifetime. -/

/-- R48: reset leaves the selected protocol and no engine; R179: no TX event. So the invariant holds there, for every
selection of the protocol and all admissible parameters. -/
def Obligations.ResetLeavesNoEngine : Prop :=
  (∀ c, (State.resetWith c).proto = c.protoSel ∧ (State.resetWith c).engine = .none ∧ (State.resetWith c).tx = []) ∧
  ∀ c : Config, c.Valid → (State.resetWith c).Inv

/-- R158, with R49 and R50: INIT with a transport replaces the slot's engine by a fresh one of the selected protocol and
requests its transport configuration; without a transport it fails and changes nothing. The contents of the fresh
queue's slots are left open. -/
def Obligations.InitCreatesFreshEngine : Prop :=
  ∀ s : State,
    exec (.init false) s = .next { s with result := some ⟨false, 0⟩ } ∧
    (s.proto = .sa → ∃ slots : List Slot, slots.length = 4 ∧
      exec (.init true) s = .next { s with
        engine := .sa
          { phase := .start, rx := .waitPreamble1, rxCmd := 0, rxLen := 0,
            rxData := List.replicate s.cfg.saMaxPayload 0, rxCount := 0, version := .unknown, channel := none,
            power := none, mode := none, freq := none, pitFreq := none, q := ⟨slots, 0, 0⟩, outstanding := none,
            lastTx := none, badPreamble := 0, badLength := 0, crcErr := 0 }
        result := some ⟨true, 0⟩
        tx := s.tx ++ [.configure 4800 8 2 .none] }) ∧
    (s.proto = .tramp →
      exec (.init true) s = .next { s with
        engine := .tramp
          { state := .offline, rx := .waitHeader, rxBuf := List.replicate 16 0, rxCount := 0, ready := false,
            retry := 20, desFreq := 0, desPower := 0, desPit := .unset, obsFreq := 0, obsPower := 0, obsPit := false,
            temp := 0, actPower := 0, ctrlFlags := 0, minFreq := 0, maxFreq := 0, maxPower := 0, lastReq := none,
            lastStatus := none, badFrame := 0 }
        result := some ⟨true, 0⟩
        tx := s.tx ++ [.configure 9600 8 1 .none] })

/-- R159: SWITCH_PROTOCOL selects the protocol and empties the engine slot, whatever it held. -/
def Obligations.SwitchProtocolDiscardsEngine : Prop :=
  ∀ (s : State) (p : Proto),
    exec (.switchProtocol p) s = .next { s with proto := p, engine := .none, result := some ⟨true, 0⟩ } ∧
    ∀ t, exec (.switchProtocol p) s = .next t →
      exec .isReady t = .next { t with result := some ⟨false, 0⟩ } ∧
      exec .protocolInUse t = .next { t with result := some ⟨true, if p = .tramp then 1 else 0⟩ }

/-- R161 to R166, class (f) of R169: with no engine, POLL, IS_READY and every setter fail and change nothing. -/
def Obligations.EngineOperationsFailWithoutEngine : Prop :=
  ∀ (s : State) (rx : List Byte) (f mw : Half) (on : Bool) (band channel : Byte), s.engine = .none →
    ∀ i ∈ [Instr.poll rx, .isReady, .setFreq f, .setPower mw, .setPit on, .setBandCh band channel],
      exec i s = .next { s with result := some ⟨false, 0⟩ }

/-! Host operations as a whole. -/

/-- R155, R171: from a state that keeps the invariant every host operation answers; and whenever one answers it gives a
result, and if that is a failure it has changed no state and emitted no TX event. -/
def Obligations.FailedOperationChangesNothing : Prop :=
  ∀ (i : Instr) (s : State), isHostOp i = true →
    (s.Inv → ∃ t, exec i s = .next t) ∧
    ∀ t, exec i s = .next t → ∃ r, t.result = some r ∧ (r.ok = false → t = { s with result := some ⟨false, 0⟩ })

/-- R72: an illegal op fails, changes no state of the block and emits no TX event, whatever its operands. As every step
does, it takes its stimulus, samples the time and clears the outputs of the step before (DESIGN CHOICE, log 2 and log 3);
that the word runs at all rather than being refused is log 24. -/
def Obligations.IllegalOpFails : Prop :=
  ∀ (s : State) (now : Nat) (op : Byte) (a : Half) (b : Byte) (list : List Byte) (rest : List Stimulus),
    (op = 0 ∨ 0x10 ≤ op.toNat) → s.input = ⟨now, .hostOp op a b list⟩ :: rest →
      step s = .next { s with
        input := rest, now := now % 2 ^ s.cfg.timeWidth, result := some ⟨false, 0⟩, built := none }

/-- A step runs the instruction that its oldest stimulus decodes to, with the `TIME_WIDTH` bits of that stimulus's time;
with no stimulus nothing happens (R154). Bytes at a frame unit's port that are no frame of the unit do not stop the step
(the model's choice, log 6): a reply unit's go to the receiver of R79 and R84, and a request unit gives for them a frame
that nothing constrains. -/
def Obligations.StepRunsDecodedInstruction : Prop :=
  (∀ (s : State) (x : Stimulus) (rest : List Stimulus), s.input = x :: rest →
    let s' : State := { s with input := rest, now := x.now % 2 ^ s.cfg.timeWidth, result := none, built := none }
    (∀ i, decode s.cfg x.word = .ok i → step s = exec i s') ∧
    (∀ f err e e', x.word = .saReply f → decode s.cfg x.word = .error err → s.engine = .sa e →
      saRxList s.cfg f e = .ok e' → step s = .next { s' with engine := .sa e' }) ∧
    (∀ f err e e', x.word = .trReply f → decode s.cfg x.word = .error err → s.engine = .tramp e →
      trRxList s.cfg f e = .ok e' → step s = .next { s' with engine := .tramp e' }) ∧
    (∀ f err, x.word = .saRequest f → decode s.cfg x.word = .error err → (∃ e, s.engine = .sa e) →
      step s = .next { s' with built := Config.unstatedFrame f }) ∧
    (∀ f err, x.word = .trRequest f → decode s.cfg x.word = .error err → (∃ e, s.engine = .tramp e) →
      step s = .next { s' with built := Config.unstatedFrame f }) ∧
    (∀ f err, x.word = .saRequest f ∨ x.word = .saReply f → decode s.cfg x.word = .error err →
      (∀ e, s.engine ≠ .sa e) → step s = .next s') ∧
    (∀ f err, x.word = .trRequest f ∨ x.word = .trReply f → decode s.cfg x.word = .error err →
      (∀ e, s.engine ≠ .tramp e) → step s = .next s')) ∧
  (∀ s : State, s.input = [] → step s = .next s)

/-- R160, R162: PROTOCOL_IN_USE reads the protocol, with or without an engine; IS_READY fails with no engine, reports
`Done` with a known version on SmartAudio, and `ready` on TRAMP. Neither writes anything else. -/
def Obligations.ControllerQueriesAnswer : Prop :=
  ∀ s : State,
    exec .protocolInUse s = .next { s with result := some ⟨true, match s.proto with | .sa => 0 | .tramp => 1⟩ } ∧
    (s.engine = .none → exec .isReady s = .next { s with result := some ⟨false, 0⟩ }) ∧
    (∀ e, s.engine = .sa e → exec .isReady s = .next { s with
      result := some ⟨true, if e.phase = .done ∧ e.version ≠ .unknown then 1 else 0⟩ }) ∧
    (∀ e, s.engine = .tramp e → exec .isReady s = .next { s with result := some ⟨true, if e.ready then 1 else 0⟩ })

/-! The register-read space. -/

/-- R46, R167: the registers of every configuration and of a SmartAudio engine read as the table says, and reading
writes nothing. Of a counter wider than its 32-bit register, which valid parameters exclude, the low 32 bits are read (the
model's choice, log 13). -/
def Obligations.RegReadSmartAudioTable : Prop :=
  ∀ (s : State) (e : SaEngine), s.engine = .sa e → e.q.slots.length = 4 →
    ∀ id v, (id, v) ∈ ([
      (0x00, match s.proto with | .sa => 0 | .tramp => 1),
      (0x01, 1),
      (0x02, if e.phase = .done ∧ e.version ≠ .unknown then 1 else 0),
      (0x10, match e.phase with | .start => 0 | .waitSettings => 1 | .waitPitFrequency => 2 | .done => 3),
      (0x11, match e.rx with
        | .waitPreamble1 => 0 | .waitPreamble2 => 1 | .waitCommand => 2 | .waitLength => 3 | .waitData => 4
        | .waitCrc => 5),
      (0x12, match e.version with | .unknown => 0 | .v1 => 1 | .v2 => 2 | .v21 => 3),
      (0x13, (e.channel.map fun x => 2 ^ 31 + x.toNat).getD 0),
      (0x14, (e.power.map fun x => 2 ^ 31 + x.toNat).getD 0),
      (0x15, (e.mode.map fun x => 2 ^ 31 + x.toNat).getD 0),
      (0x16, (e.freq.map fun x => 2 ^ 31 + x.toNat).getD 0),
      (0x17, (e.pitFreq.map fun x => 2 ^ 31 + x.toNat).getD 0),
      (0x18, (e.outstanding.map fun x => 2 ^ 31 + x.toNat).getD 0),
      (0x19, e.q.count),
      (0x1A, e.q.head),
      (0x1C, e.badPreamble),
      (0x1D, e.badLength),
      (0x1E, e.crcErr),
      (0x30, ((queueEntries e.q)[0]?.map fun x => 2 ^ 31 + x.id.toNat).getD 0),
      (0x31, ((queueEntries e.q)[1]?.map fun x => 2 ^ 31 + x.id.toNat).getD 0),
      (0x32, ((queueEntries e.q)[2]?.map fun x => 2 ^ 31 + x.id.toNat).getD 0),
      (0x33, ((queueEntries e.q)[3]?.map fun x => 2 ^ 31 + x.id.toNat).getD 0)] : List (Byte × Nat)) →
    exec (.regRead id) s = .next { s with result := some ⟨true, BitVec.ofNat 32 v⟩ }

/-- R46, R167: the registers of a TRAMP engine read as the table says, and reading writes nothing; a counter wider than
32 bits as in `RegReadSmartAudioTable` (log 13). -/
def Obligations.RegReadTrampTable : Prop :=
  ∀ (s : State) (e : TrEngine), s.engine = .tramp e →
    ∀ id v, (id, v) ∈ ([
      (0x00, match s.proto with | .sa => 0 | .tramp => 1),
      (0x01, 1),
      (0x02, if e.ready then 1 else 0),
      (0x40, match e.state with | .offline => 0 | .init => 1 | .monFreqPwrPit => 2 | .monTemp => 3 | .config => 4),
      (0x41, match e.rx with | .waitHeader => 0 | .waitResponseCode => 1 | .accumulateData => 2),
      (0x42, e.retry),
      (0x43, e.desFreq.toNat),
      (0x44, e.desPower.toNat),
      (0x45, match e.desPit with | .unset => 0 | .off => 2 ^ 31 | .on => 2 ^ 31 + 1),
      (0x46, e.obsFreq.toNat),
      (0x47, e.obsPower.toNat),
      (0x48, if e.obsPit then 1 else 0),
      (0x49, e.temp.toNat),
      (0x4A, e.actPower.toNat),
      (0x4B, e.ctrlFlags.toNat),
      (0x4C, e.minFreq.toNat),
      (0x4D, e.maxFreq.toNat),
      (0x4E, e.maxPower.toNat),
      (0x51, e.badFrame)] : List (Byte × Nat)) →
    exec (.regRead id) s = .next { s with result := some ⟨true, BitVec.ofNat 32 v⟩ }

/-- R46, R167: without an engine the registers of every configuration read the protocol, 0 and 0; and an id that does not
exist in the current configuration fails. Neither writes anything else. -/
def Obligations.RegReadAbsentIdFails : Prop :=
  (∀ s : State, s.engine = .none →
    exec (.regRead 0x00) s = .next { s with result := some ⟨true, match s.proto with | .sa => 0 | .tramp => 1⟩ } ∧
    exec (.regRead 0x01) s = .next { s with result := some ⟨true, 0⟩ } ∧
    exec (.regRead 0x02) s = .next { s with result := some ⟨true, 0⟩ }) ∧
  ∀ (s : State) (id : Byte), 3 ≤ id.toNat →
    (∀ e, s.engine = .sa e → ¬ (0x10 ≤ id.toNat ∧ id.toNat ≤ 0x1E ∧ id.toNat ≠ 0x1B) ∧
      ¬ (0x30 ≤ id.toNat ∧ id.toNat ≤ 0x33)) →
    (∀ e, s.engine = .tramp e → ¬ (0x40 ≤ id.toNat ∧ id.toNat ≤ 0x4E) ∧ id.toNat ≠ 0x51) →
    exec (.regRead id) s = .next { s with result := some ⟨false, 0⟩ }

/-! Integrity functions and the frequency table. -/

/-- R90: the byte strings that end in their own CRC are exactly the multiples of the generator polynomial. -/
def Obligations.CrcIsPolynomialRemainder : Prop :=
  ∀ (m : List Byte) (t : Byte), crcGenerator ∣ wirePoly (m ++ [t]) ↔ t = crc8 m

/-- R91 (a), (b), (d): the empty string, a string with its own trailer, and linearity over GF(2). -/
def Obligations.CrcSelfCheckAndLinearity : Prop :=
  crc8 [] = 0 ∧ (∀ m, crc8 (m ++ [crc8 m]) = 0) ∧
  ∀ m m' : List Byte, m.length = m'.length → crc8 (List.zipWith (· ^^^ ·) m m') = crc8 m ^^^ crc8 m'

/-- R91 (c): a single flipped bit, in the message or in the trailer, is detected by SA_VALIDATE. -/
def Obligations.CrcDetectsSingleBitFlips : Prop :=
  ∀ (s : State) (m : List Byte) (i k : Nat) (h : i < (m ++ [crc8 m]).length), k < 8 →
    ∃ v : Word, exec (.saValidate ((m ++ [crc8 m]).set i ((m ++ [crc8 m])[i] ^^^ ((1 : Byte) <<< k)))) s =
      .next { s with result := some ⟨true, v⟩ } ∧ v.getLsbD 0 = false

/-- R92, R93: CRC8 answers the CRC; SA_VALIDATE answers the CRC of all but the last byte in bits 15..8 and whether the
last byte matches it in bit 0, and fails on an empty list. Neither writes anything else. -/
def Obligations.CrcOperationsAnswer : Prop :=
  ∀ (s : State) (m : List Byte) (t : Byte),
    exec (.crc8 m) s = .next { s with result := some ⟨true, BitVec.ofNat 32 (crc8 m).toNat⟩ } ∧
    exec (.saValidate (m ++ [t])) s = .next { s with
      result := some ⟨true, BitVec.ofNat 32 ((crc8 m).toNat * 256 + if crc8 m = t then 1 else 0)⟩ } ∧
    exec (.saValidate []) s = .next { s with result := some ⟨false, 0⟩ }

/-- R95 (a), (d): the TRAMP checksum depends only on which bytes stand in positions 1..13, not on their order. -/
def Obligations.TrampChecksumIgnoresOrder : Prop :=
  ∀ f g : List Byte, f.length = 16 → g.length = 16 →
    ((f.drop 1).take 13).Perm ((g.drop 1).take 13) → trampChecksum f = trampChecksum g

/-- R95 (b): changing one byte of positions 1..13 of a frame that validates makes TRAMP_VALIDATE report a checksum
mismatch. -/
def Obligations.TrampChecksumDetectsByteChange : Prop :=
  ∀ (s : State) (f : List Byte) (i : Nat) (v : Byte), f.length = 16 → 1 ≤ i → i ≤ 13 → f[i]? ≠ some v →
    f[14]? = some (trampChecksum f) →
    ∃ d : Word, exec (.trampValidate (f.set i v)) s = .next { s with result := some ⟨true, d⟩ } ∧
      d.getLsbD 0 = false ∧ d.getLsbD 1 = false

/-- R94, R96, R97: the TRAMP operations' answers for 16 bytes (the sum of bytes 1..13 mod 256; and in bits 2, 1, 0 the
terminator, the checksum and both), and their failure on any other length. Neither writes anything else. -/
def Obligations.TrampChecksumOperationsAnswer : Prop :=
  ∀ (s : State) (h b1 b2 b3 b4 b5 b6 b7 b8 b9 b10 b11 b12 b13 chk term : Byte),
    let f := [h, b1, b2, b3, b4, b5, b6, b7, b8, b9, b10, b11, b12, b13, chk, term]
    let sum := (b1.toNat + b2.toNat + b3.toNat + b4.toNat + b5.toNat + b6.toNat + b7.toNat + b8.toNat + b9.toNat +
      b10.toNat + b11.toNat + b12.toNat + b13.toNat) % 256
    let sok := chk.toNat = sum
    let tok := term = 0
    exec (.trampChecksum f) s = .next { s with result := some ⟨true, BitVec.ofNat 32 sum⟩ } ∧
    exec (.trampValidate f) s = .next { s with
      result := some ⟨true, BitVec.ofNat 32 (sum * 256 + (if tok then 4 else 0) + (if sok then 2 else 0) +
        if sok ∧ tok then 1 else 0)⟩ } ∧
    ∀ l : List Byte, l.length ≠ 16 →
      exec (.trampChecksum l) s = .next { s with result := some ⟨false, 0⟩ } ∧
      exec (.trampValidate l) s = .next { s with result := some ⟨false, 0⟩ }

/-- R88: the lookup answers the table's entry in range and 0 out of range, always with ok, in every state and without
writing anything; under the default parameters Raceband channel 3 is 5732 MHz. -/
def Obligations.BandChannelLookup : Prop :=
  ∀ (s : State) (band channel : Byte),
    (∀ (b : Fin 5) (ch : Fin 8), band.toNat = b + 1 → channel.toNat = ch + 1 →
      exec (.bandChToFreq band channel) s = .next { s with
        result := some ⟨true, BitVec.ofNat 32 (s.cfg.freqTable[b])[ch].toNat⟩ }) ∧
    (¬ (1 ≤ band.toNat ∧ band.toNat ≤ 5 ∧ 1 ≤ channel.toNat ∧ channel.toNat ≤ 8) →
      exec (.bandChToFreq band channel) s = .next { s with result := some ⟨true, 0⟩ }) ∧
    (s.cfg = standardConfig → exec (.bandChToFreq 5 3) s = .next { s with result := some ⟨true, 5732⟩ })

/-! Encoding. -/

/-- The decoder gives back every well-formed instruction from its encoding, every operand at every value. -/
def Obligations.DecodeOfEncode : Prop :=
  ∀ (c : Config) (i : Instr), c.Valid → i.wellFormed c = true → decode c (encode c i) = .ok i

/-- R74, R78: what the decoder accepts is well-formed: a reply's payload fits, and an "other" reply has no listed code.
Host operations and requests take every operand (log 22), so this says nothing of theirs. -/
def Obligations.DecodedIsWellFormed : Prop :=
  ∀ (c : Config) (x : InWord) (i : Instr), decode c x = .ok i → i.wellFormed c = true

/-- A frame whose every byte has a meaning is the encoding of what it decodes to: SmartAudio frames and TRAMP
requests. -/
def Obligations.EncodeOfDecodedFrame : Prop :=
  ∀ (c : Config) (f : List Byte) (i : Instr),
    (decode c (.saRequest f) = .ok i → encode c i = .saRequest f) ∧
    (decode c (.saReply f) = .ok i → encode c i = .saReply f) ∧
    (decode c (.trRequest f) = .ok i → encode c i = .trRequest f)

/-- Words written out from the tables of R71, R76, R78, R82 and R83 decode to the instructions they stand for. -/
def Obligations.WrittenWordsDecode : Prop :=
  decode standardConfig (.hostOp 0x04 0x1664 0x00 []) = .ok (.setFreq 5732) ∧
  decode standardConfig (.hostOp 0x07 0x0105 0x03 []) = .ok (.setBandCh 5 3) ∧
  decode standardConfig (.hostOp 0x01 0x0000 0x03 []) = .ok (.init true) ∧
  decode standardConfig (.saRequest [0xAA, 0x55, 0x09, 0x02, 0x16, 0x6C, 0x18]) = .ok (.saSetFrequency 5740) ∧
  decode standardConfig (.saReply [0xAA, 0x55, 0x01, 0x02, 0x22, 0x01, 0x5D]) = .ok (.saReplySettingsV1 [0x22, 0x01]) ∧
  decode standardConfig (.trRequest [0x0F, 0x46, 0x6C, 0x16, 0, 0, 0, 0, 0, 0, 0, 0, 0, 0, 0xC8, 0]) =
    .ok (.trSetFrequency 5740) ∧
  decode standardConfig (.trReply [0x0F, 0x72, 0xE0, 0x15, 0x70, 0x17, 0x58, 0x02, 0, 0, 0, 0, 0, 0, 0x48, 0]) =
    .ok (.trReplyReset 5600 6000 600)

/-! The request builders. -/

/-- R100 to R104: on a SmartAudio engine the builders return the frames, big-endian and with the CRC of every
preceding byte, and write nothing else. -/
def Obligations.SmartAudioRequestFrames : Prop :=
  ∀ (s : State) (e : SaEngine) (x : Byte) (v : Half), s.engine = .sa e →
    exec .saGetSettings s = .next { s with built := some [0xAA, 0x55, 0x03, 0x00, 0x9F] } ∧
    exec (.saSetPower x) s = .next { s with
      built := some [0xAA, 0x55, 0x05, 0x01, x, crc8 [0xAA, 0x55, 0x05, 0x01, x]] } ∧
    exec (.saSetChannel x) s = .next { s with
      built := some [0xAA, 0x55, 0x07, 0x01, x, crc8 [0xAA, 0x55, 0x07, 0x01, x]] } ∧
    exec (.saSetMode x) s = .next { s with
      built := some [0xAA, 0x55, 0x0B, 0x01, x, crc8 [0xAA, 0x55, 0x0B, 0x01, x]] } ∧
    ∀ hi lo : Byte, v.toNat = hi.toNat * 256 + lo.toNat →
      exec (.saSetFrequency v) s = .next { s with
        built := some [0xAA, 0x55, 0x09, 0x02, hi, lo, crc8 [0xAA, 0x55, 0x09, 0x02, hi, lo]] }

/-- R134, R135: on a TRAMP engine the builders return the 16-byte frames, little-endian and with their checksum, and
write nothing else; pit mode on is sent as the "inactive" parameter. -/
def Obligations.TrampRequestFrames : Prop :=
  ∀ (s : State) (e : TrEngine), s.engine = .tramp e →
    exec .trResetQuery s = .next { s with built := some [0x0F, 0x72, 0, 0, 0, 0, 0, 0, 0, 0, 0, 0, 0, 0, 0x72, 0] } ∧
    exec .trStatusQuery s = .next { s with built := some [0x0F, 0x76, 0, 0, 0, 0, 0, 0, 0, 0, 0, 0, 0, 0, 0x76, 0] } ∧
    exec .trTempQuery s = .next { s with built := some [0x0F, 0x73, 0, 0, 0, 0, 0, 0, 0, 0, 0, 0, 0, 0, 0x73, 0] } ∧
    ∀ (p : Half) (hi lo : Byte), p.toNat = hi.toNat * 256 + lo.toNat →
      exec (.trSetFrequency p) s = .next { s with
        built := some [0x0F, 0x46, lo, hi, 0, 0, 0, 0, 0, 0, 0, 0, 0, 0, 0x46 + lo + hi, 0] } ∧
      exec (.trSetPower p) s = .next { s with
        built := some [0x0F, 0x50, lo, hi, 0, 0, 0, 0, 0, 0, 0, 0, 0, 0, 0x50 + lo + hi, 0] } ∧
      ∀ on : Bool, p = (if on then s.cfg.trPitInactive else s.cfg.trPitActive) →
        exec (.trSetActive on) s = .next { s with
          built := some [0x0F, 0x49, lo, hi, 0, 0, 0, 0, 0, 0, 0, 0, 0, 0, 0x49 + lo + hi, 0] }

/-! The SmartAudio queue and setters. -/

/-- R119, R120: on its live entries the circular buffer is a first-in first-out list of at most four, which drops the
newest command when it is full. -/
def Obligations.QueueIsBoundedFifo : Prop :=
  ∀ (q : SaQueue) (f : List Byte) (id : CmdId), q.slots.length = 4 → q.head < 4 → q.count ≤ 4 →
    (queueEntries q).length = q.count ∧
    (∃ q', queuePush f id q = .ok q' ∧ queueEntries q' = (queueEntries q ++ [(⟨id, f⟩ : Slot)]).take 4 ∧
      q'.slots.length = 4 ∧ q'.head < 4 ∧ q'.count ≤ 4) ∧
    (0 < q.count → ∃ q', queuePop q = .ok q' ∧ queueEntries q' = (queueEntries q).tail ∧
      q'.slots.length = 4 ∧ q'.head < 4 ∧ q'.count ≤ 4) ∧
    (0 < q.count → ∃ x, queueFront q = .ok x ∧ (queueEntries q).head? = some x)

/-- R128, R163: SmartAudio SET_FREQ. -/
def Obligations.SmartAudioSetFreq : Prop :=
  ∀ (s : State) (e : SaEngine) (f : Half) (hi lo : Byte), s.engine = .sa e → e.q.slots.length = 4 →
    f.toNat = hi.toNat * 256 + lo.toNat →
    (f.toNat < 5000 ∨ 5999 < f.toNat → exec (.setFreq f) s = .next { s with result := some ⟨false, 0⟩ }) ∧
    (5000 ≤ f.toNat → f.toNat ≤ 5999 → e.q.count = 4 →
      exec (.setFreq f) s = .next { s with result := some ⟨true, 0⟩ }) ∧
    (5000 ≤ f.toNat → f.toNat ≤ 5999 → e.q.count ≠ 4 →
      exec (.setFreq f) s = .next { s with
        engine := .sa { e with q := { e.q with
          slots := e.q.slots.set ((e.q.head + e.q.count) % 4)
            ⟨0x04, [0xAA, 0x55, 0x09, 0x02, hi, lo, crc8 [0xAA, 0x55, 0x09, 0x02, hi, lo]]⟩
          count := e.q.count + 1 } }
        result := some ⟨true, 0⟩ })

/-- R130, R164: SmartAudio SET_POWER, for any power map; the byte is the map's for the version known when it runs. The map
is a list of entries of which the first that matches counts: DESIGN CHOICE (log 7), R129 gives a partial function. -/
def Obligations.SmartAudioSetPower : Prop :=
  ∀ (s : State) (e : SaEngine) (mw : Half), s.engine = .sa e → e.q.slots.length = 4 →
    ((∀ x ∈ s.cfg.saPowerMap, ¬ (x.version = e.version ∧ x.mw = mw)) →
      exec (.setPower mw) s = .next { s with result := some ⟨false, 0⟩ }) ∧
    (∀ (pre post : List PowerEntry) (pw : Byte), s.cfg.saPowerMap = pre ++ ⟨e.version, mw, pw⟩ :: post →
      (∀ x ∈ pre, ¬ (x.version = e.version ∧ x.mw = mw)) →
      exec (.setPower mw) s = .next { s with
        engine := .sa { e with q := if e.q.count = 4 then e.q else { e.q with
          slots := e.q.slots.set ((e.q.head + e.q.count) % 4)
            ⟨0x02, [0xAA, 0x55, 0x05, 0x01, pw, crc8 [0xAA, 0x55, 0x05, 0x01, pw]]⟩
          count := e.q.count + 1 } }
        result := some ⟨true, 0⟩ })

/-- R131, R165: SmartAudio SET_PIT. -/
def Obligations.SmartAudioSetPit : Prop :=
  ∀ (s : State) (e : SaEngine) (on : Bool), s.engine = .sa e → e.q.slots.length = 4 →
    (e.version = .unknown ∨ e.version = .v1 →
      exec (.setPit on) s = .next { s with result := some ⟨false, 0⟩ }) ∧
    (e.version = .v2 ∨ e.version = .v21 →
      exec (.setPit on) s = .next { s with
        engine := .sa { e with q := if e.q.count = 4 then e.q else { e.q with
          slots := e.q.slots.set ((e.q.head + e.q.count) % 4)
            ⟨0x05, if on then [0xAA, 0x55, 0x0B, 0x01, 0x01, 0xF8] else [0xAA, 0x55, 0x0B, 0x01, 0x04, 0xD3]⟩
          count := e.q.count + 1 } }
        result := some ⟨true, 0⟩ })

/-- R132, R166, R89: SmartAudio SET_BANDCH. -/
def Obligations.SmartAudioSetBandCh : Prop :=
  ∀ (s : State) (e : SaEngine) (band channel : Byte), s.engine = .sa e → e.q.slots.length = 4 →
    (¬ (1 ≤ band.toNat ∧ band.toNat ≤ 5 ∧ 1 ≤ channel.toNat ∧ channel.toNat ≤ 8) →
      exec (.setBandCh band channel) s = .next { s with result := some ⟨false, 0⟩ }) ∧
    (∀ (b : Fin 5) (ch : Fin 8) (idx : Byte), band.toNat = b + 1 → channel.toNat = ch + 1 →
      idx.toNat = b * 8 + ch →
      exec (.setBandCh band channel) s = .next { s with
        engine := .sa { e with q := if e.q.count = 4 then e.q else { e.q with
          slots := e.q.slots.set ((e.q.head + e.q.count) % 4)
            ⟨0x03, [0xAA, 0x55, 0x07, 0x01, idx, crc8 [0xAA, 0x55, 0x07, 0x01, idx]]⟩
          count := e.q.count + 1 } }
        result := some ⟨true, 0⟩ })

/-! The SmartAudio receiver and replies. -/

/-- R106 to R109: the receiver's first four states, byte by byte. -/
def Obligations.SmartAudioHeaderBytes : Prop :=
  ∀ (c : Config) (e : SaEngine) (d : Byte),
    (e.rx = .waitPreamble1 → saRxByte c d e = .ok (if d = 0xAA then { e with rx := .waitPreamble2 }
      else { e with badPreamble := (e.badPreamble + 1) % 2 ^ c.cntWidth })) ∧
    (e.rx = .waitPreamble2 → saRxByte c d e = .ok (if d = 0x55 then { e with rx := .waitCommand }
      else { e with badPreamble := (e.badPreamble + 1) % 2 ^ c.cntWidth, rx := .waitPreamble1 })) ∧
    (e.rx = .waitCommand → saRxByte c d e = .ok { e with rxCmd := d, rx := .waitLength }) ∧
    (e.rx = .waitLength → saRxByte c d e = .ok (
      if c.saMaxPayload < d.toNat then { e with badLength := (e.badLength + 1) % 2 ^ c.cntWidth, rx := .waitPreamble1 }
      else { e with rxLen := d, rxCount := 0, rx := if d = 0 then .waitCrc else .waitData }))

/-- R105 to R113: the receiver, fed the frame of a reply from its first state, does what the reply instruction does to
the engine whose receive registers hold that frame. -/
def Obligations.SmartAudioReceiverDecodesReply : Prop :=
  ∀ (s : State) (e : SaEngine) (i : Instr) (f : List Byte), s.cfg.Valid → s.engine = .sa e → e.Wf s.cfg →
    e.rx = .waitPreamble1 → i.wellFormed s.cfg = true → encode s.cfg i = .saReply f →
    ∃ e', saRxList s.cfg f e = .ok e' ∧
      exec i { s with engine := .sa { e with
        rxCmd := f.getD 2 0
        rxLen := f.getD 3 0
        rxCount := f.getD 3 0
        rxData := saPayload f ++ e.rxData.drop (saPayload f).length } } = .next { s with engine := .sa e' }

/-- R111: a frame whose trailer does not match is discarded: nothing changes but the CRC-error counter and the receive
registers. -/
def Obligations.SmartAudioReceiverDiscardsBadCrc : Prop :=
  ∀ (c : Config) (e : SaEngine) (cmd : Byte) (p : List Byte) (t : Byte), c.Valid → e.Wf c → e.rx = .waitPreamble1 →
    p.length ≤ c.saMaxPayload → t ≠ crc8 ([0xAA, 0x55, cmd, BitVec.ofNat 8 p.length] ++ p) →
    saRxList c ([0xAA, 0x55, cmd, BitVec.ofNat 8 p.length] ++ p ++ [t]) e = .ok { e with
      rxCmd := cmd
      rxLen := BitVec.ofNat 8 p.length
      rxCount := BitVec.ofNat 8 p.length
      rxData := p ++ e.rxData.drop p.length
      crcErr := (e.crcErr + 1) % 2 ^ c.cntWidth }

/-- R192, R161: a frame split over several RX lists leaves both receivers as one list would, and a POLL receives every
byte of its RX list before it does anything else. -/
def Obligations.ReceiversResumeSplitFrames : Prop :=
  (∀ (c : Config) (a b : List Byte) (e : SaEngine),
    saRxList c (a ++ b) e = (saRxList c a e).bind (saRxList c b)) ∧
  (∀ (c : Config) (a b : List Byte) (e : TrEngine), trRxList c (a ++ b) e = (trRxList c a e).bind (trRxList c b)) ∧
  (∀ (s : State) (e : SaEngine) (rx : List Byte), s.cfg.Valid → s.engine = .sa e → e.Wf s.cfg →
    ∃ e' t, saRxList s.cfg rx e = .ok e' ∧ exec (.poll rx) s = .next t ∧
      exec (.poll []) { s with engine := .sa e' } = .next t) ∧
  (∀ (s : State) (e : TrEngine) (rx : List Byte), s.engine = .tramp e → e.Wf s.cfg →
    ∃ e' t, trRxList s.cfg rx e = .ok e' ∧ exec (.poll rx) s = .next t ∧
      exec (.poll []) { s with engine := .tramp e' } = .next t)

/-- R115, R114, R123: the settings replies set the version and the fields that the payload reaches, and answer an
outstanding GET_SETTINGS only. -/
def Obligations.SmartAudioSettingsReplies : Prop :=
  ∀ (s : State) (e : SaEngine) (p : List Byte), s.engine = .sa e →
    (e.outstanding = some 0x01 → 0 < e.q.count) →
    let after (v : SaVersion) : SaEngine := { e with
      version := v
      channel := match p with | x :: _ => some x | _ => e.channel
      power := match p with | _ :: x :: _ => some x | _ => e.power
      mode := match p with | _ :: _ :: x :: _ => some x | _ => e.mode
      freq := match p with | _ :: _ :: _ :: hi :: lo :: _ => some (BitVec.ofNat 16 (hi.toNat * 256 + lo.toNat)) | _ => e.freq
      q := if e.outstanding = some 0x01 then { e.q with head := (e.q.head + 1) % 4, count := e.q.count - 1 } else e.q
      outstanding := if e.outstanding = some 0x01 then none else e.outstanding }
    exec (.saReplySettingsV1 p) s = .next { s with engine := .sa (after .v1) } ∧
    exec (.saReplySettingsV2 p) s = .next { s with engine := .sa (after .v2) } ∧
    exec (.saReplySettingsV21 p) s = .next { s with engine := .sa (after .v21) }

/-- R116, R123: the SET_FREQUENCY echo, for any `SA_PIT_FLAG`: a payload of two bytes or more reports the pit frequency,
its flag bits taken off, when one of them is set, and else the frequency; a shorter one reports nothing. Either answers an
outstanding SET_FREQUENCY. -/
def Obligations.SmartAudioFrequencyEcho : Prop :=
  ∀ (s : State) (e : SaEngine) (hi lo : Byte) (more : List Byte) (v : Half), s.engine = .sa e →
    (e.outstanding = some 0x04 → 0 < e.q.count) → v.toNat = hi.toNat * 256 + lo.toNat →
    let answered (e : SaEngine) : SaEngine := { e with
      q := if e.outstanding = some 0x04 then { e.q with head := (e.q.head + 1) % 4, count := e.q.count - 1 } else e.q
      outstanding := if e.outstanding = some 0x04 then none else e.outstanding }
    (v &&& s.cfg.saPitFlag ≠ 0 →
      exec (.saReplySetFrequency (hi :: lo :: more)) s = .next { s with
        engine := .sa (answered { e with pitFreq := some (v &&& (0xFFFF ^^^ s.cfg.saPitFlag)) }) }) ∧
    (v &&& s.cfg.saPitFlag = 0 →
      exec (.saReplySetFrequency (hi :: lo :: more)) s = .next { s with
        engine := .sa (answered { e with freq := some v }) }) ∧
    (∀ p : List Byte, p.length < 2 →
      exec (.saReplySetFrequency p) s = .next { s with engine := .sa (answered e) })

/-- R117, R118, R123: the other echoes change no observed field, and each answers its own outstanding command and no
other; a reply with a code that is not listed changes nothing at all. -/
def Obligations.SmartAudioEchoesAndOtherReplies : Prop :=
  ∀ (s : State) (e : SaEngine) (p : List Byte), s.engine = .sa e →
    let answered (id : CmdId) : SaEngine :=
      if e.outstanding = some id then
        { e with q := { e.q with head := (e.q.head + 1) % 4, count := e.q.count - 1 }, outstanding := none }
      else e
    ((e.outstanding ≠ none → 0 < e.q.count) →
      exec (.saReplySetPower p) s = .next { s with engine := .sa (answered 0x02) } ∧
      exec (.saReplySetChannel p) s = .next { s with engine := .sa (answered 0x03) } ∧
      exec (.saReplySetMode p) s = .next { s with engine := .sa (answered 0x05) }) ∧
    ∀ code : Byte, code ∉ ([0x01, 0x09, 0x11, 0x02, 0x03, 0x04, 0x05] : List Byte) →
      exec (.saReplyOther code p) s = .next s

/-- The rules of 42_sa_frames.md and 44_tramp_frames.md apply only to an engine of their own protocol: with another one,
or with none, a frame row changes nothing (DEDUCED, log 5). -/
def Obligations.FrameRowsNeedTheirEngine : Prop :=
  ∀ (s : State) (x : Byte) (v w u : Half) (b : Bool) (p : List Byte),
    ((∀ e, s.engine ≠ .sa e) →
      ∀ i ∈ [Instr.saGetSettings, .saSetPower x, .saSetChannel x, .saSetFrequency v, .saSetMode x,
          .saReplySettingsV1 p, .saReplySettingsV2 p, .saReplySettingsV21 p, .saReplySetPower p, .saReplySetChannel p,
          .saReplySetFrequency p, .saReplySetMode p, .saReplyOther x p],
        exec i s = .next s) ∧
    ((∀ e, s.engine ≠ .tramp e) →
      ∀ i ∈ [Instr.trResetQuery, .trStatusQuery, .trTempQuery, .trSetFrequency v, .trSetPower v, .trSetActive b,
          .trReplyReset v w u, .trReplyStatus v w x b u, .trReplyTemp v],
        exec i s = .next s)

/-! The SmartAudio engine in POLL. -/

/-- R161, R126: the first POLL of a fresh engine sends GET_SETTINGS at once. -/
def Obligations.FirstSmartAudioPollAsksSettings : Prop :=
  ∀ (s t : State), s.proto = .sa → exec (.init true) s = .next t →
    ∃ u e, exec (.poll []) t = .next u ∧ u.engine = .sa e ∧ u.result = some ⟨true, 0⟩ ∧
      u.tx = t.tx ++ [.group [0x00, 0xAA, 0x55, 0x03, 0x00, 0x9F], .flush] ∧
      e.phase = .waitSettings ∧ e.outstanding = some 0x01 ∧ e.lastTx = some t.now ∧
      queueEntries e.q = [⟨0x01, [0xAA, 0x55, 0x03, 0x00, 0x9F]⟩]

/-- R126, R186, R124: a POLL without RX bytes, in every phase. The initialization step moves at most one phase and
enqueues GET_SETTINGS at `Start`, or the pit-frequency query with `SA_PIT_FLAG` on `WaitSettings` with version 2 or 2.1;
a full queue drops what it enqueues. Then the scheduler sends the front of the queue, for the first time or again, or
enqueues a settings poll, or does nothing. The queue's head and its four slots stay, and no other field changes; only what
stands in slots without a live entry is left open. -/
def Obligations.InitializationPhases : Prop :=
  ∀ (s : State) (e : SaEngine) (hi lo : Byte), s.engine = .sa e → e.Wf s.cfg →
    s.cfg.saPitFlag.toNat = hi.toNat * 256 + lo.toNat →
    let settings : Slot := ⟨0x01, [0xAA, 0x55, 0x03, 0x00, 0x9F]⟩
    let pitQuery : Slot := ⟨0x04, [0xAA, 0x55, 0x09, 0x02, hi, lo, crc8 [0xAA, 0x55, 0x09, 0x02, hi, lo]]⟩
    let waited (p : Nat) : Prop := ∀ t, e.lastTx = some t → p ≤ elapsed s.cfg s.now t
    let phase : SaPhase := match e.phase with
      | .start => .waitSettings
      | .waitSettings =>
        if e.version = .unknown then .waitSettings else if e.version = .v1 then .done else .waitPitFrequency
      | .waitPitFrequency => if e.pitFreq = none then .waitPitFrequency else .done
      | .done => .done
    let asked : List Slot := match e.phase with
      | .start => [settings]
      | .waitSettings => if e.version = .v2 ∨ e.version = .v21 then [pitQuery] else []
      | .waitPitFrequency => []
      | .done => []
    let queued : List Slot := (queueEntries e.q ++ asked).take 4
    let sent (x : Slot) : List TxEvent := s.tx ++ [.group (0x00 :: x.bytes), .flush]
    let holds (q : SaQueue) (entries : List Slot) : Prop :=
      queueEntries q = entries ∧ q.head = e.q.head ∧ q.slots.length = 4
    let quiet (entries : List Slot) : Prop := ∃ q, holds q entries ∧
      exec (.poll []) s = .next { s with
        engine := .sa { e with phase := phase, q := q }, result := some ⟨true, 0⟩ }
    (∀ x, e.outstanding = none → queued.head? = some x → ∃ q, holds q queued ∧
      exec (.poll []) s = .next { s with
        engine := .sa { e with phase := phase, q := q, outstanding := some x.id, lastTx := some s.now }
        tx := sent x, result := some ⟨true, 0⟩ }) ∧
    (∀ x, e.outstanding ≠ none → waited s.cfg.saCmdTimeoutMs → queued.head? = some x → ∃ q, holds q queued ∧
      exec (.poll []) s = .next { s with
        engine := .sa { e with phase := phase, q := q, lastTx := some s.now }
        tx := sent x, result := some ⟨true, 0⟩ }) ∧
    (e.outstanding ≠ none → ¬ waited s.cfg.saCmdTimeoutMs → quiet queued) ∧
    (e.outstanding = none → queued = [] → phase = .done → waited s.cfg.saPollIntervalMs → quiet [settings]) ∧
    (e.outstanding = none → queued = [] → ¬ (phase = .done ∧ waited s.cfg.saPollIntervalMs) → quiet [])

/-- R124: the scheduler's branches, on an initialized engine that receives nothing. -/
def Obligations.OutboundScheduler : Prop :=
  ∀ (s : State) (e : SaEngine), s.engine = .sa e → e.Wf s.cfg → e.phase = .done →
    let sent (x : Slot) : List TxEvent := s.tx ++ [.group (0x00 :: x.bytes), .flush]
    let waited (p : Nat) : Prop := ∀ t, e.lastTx = some t → p ≤ elapsed s.cfg s.now t
    (e.outstanding ≠ none → ¬ waited s.cfg.saCmdTimeoutMs →
      exec (.poll []) s = .next { s with result := some ⟨true, 0⟩ }) ∧
    (∀ x, e.outstanding ≠ none → waited s.cfg.saCmdTimeoutMs → (queueEntries e.q).head? = some x →
      exec (.poll []) s = .next { s with
        engine := .sa { e with lastTx := some s.now }, tx := sent x, result := some ⟨true, 0⟩ }) ∧
    (∀ x, e.outstanding = none → (queueEntries e.q).head? = some x →
      exec (.poll []) s = .next { s with
        engine := .sa { e with outstanding := some x.id, lastTx := some s.now }, tx := sent x
        result := some ⟨true, 0⟩ }) ∧
    (e.outstanding = none → e.q.count = 0 → waited s.cfg.saPollIntervalMs →
      exec (.poll []) s = .next { s with
        engine := .sa { e with q := { e.q with
          slots := e.q.slots.set e.q.head ⟨0x01, [0xAA, 0x55, 0x03, 0x00, 0x9F]⟩, count := 1 } }
        result := some ⟨true, 0⟩ }) ∧
    (e.outstanding = none → e.q.count = 0 → ¬ waited s.cfg.saPollIntervalMs →
      exec (.poll []) s = .next { s with result := some ⟨true, 0⟩ })

/-- R122, R124: while a command is outstanding and no reply comes, a POLL sends nothing but the front frame again, and
that only once the timeout has passed; the command stays outstanding. -/
def Obligations.OutstandingCommandBlocksQueue : Prop :=
  ∀ (s t : State) (e : SaEngine) (o : CmdId), s.engine = .sa e → e.Wf s.cfg → e.outstanding = some o →
    exec (.poll []) s = .next t →
    (∃ e', t.engine = .sa e' ∧ e'.outstanding = some o ∧ (queueEntries e'.q).head? = (queueEntries e.q).head?) ∧
    (t.tx = s.tx ∨ ∃ x last, (queueEntries e.q).head? = some x ∧ e.lastTx = some last ∧
      s.cfg.saCmdTimeoutMs ≤ elapsed s.cfg s.now last ∧ t.tx = s.tx ++ [.group (0x00 :: x.bytes), .flush])

/-! TRAMP replies and receiver. -/

/-- R142, R143, R144: the reset-class reply, ignored whole if a field is 0; the status-class reply; and the
temperature-class reply, ignored if it is 0. -/
def Obligations.TrampReplies : Prop :=
  ∀ (s : State) (e : TrEngine) (mn mx mp temp freq power act : Half) (ctrl : Byte) (pit : Bool), s.engine = .tramp e →
    (mn = 0 ∨ mx = 0 ∨ mp = 0 → exec (.trReplyReset mn mx mp) s = .next s) ∧
    (mn ≠ 0 → mx ≠ 0 → mp ≠ 0 → exec (.trReplyReset mn mx mp) s = .next { s with
      engine := .tramp { e with minFreq := mn, maxFreq := mx, maxPower := mp
                                state := if e.state = .offline then .init else e.state } }) ∧
    exec (.trReplyStatus freq power ctrl pit act) s = .next { s with
      engine := .tramp { e with
        obsFreq := freq, obsPower := power, ctrlFlags := ctrl, obsPit := pit, actPower := act
        desFreq := if e.desFreq = 0 then freq else e.desFreq
        desPower := if e.desPower = 0 then power else e.desPower
        state := if e.state = .init then .monFreqPwrPit else e.state
        ready := if e.state = .init then true else e.ready } } ∧
    exec (.trReplyTemp temp) s = .next { s with
      engine := .tramp { e with temp := if temp = 0 then e.temp else temp } }

/-- R137 to R139: the receiver byte by byte, up to the last byte of a frame: a byte that is no header is skipped and
nothing is counted; a code that is none of 'r', 'v', 's' resets the receiver, is not counted, and is not examined again
as a header, even if it is 0x0F; every byte of data is stored. -/
def Obligations.TrampHeaderAndCodeBytes : Prop :=
  ∀ (c : Config) (e : TrEngine) (d : Byte), e.rxBuf.length = 16 →
    (e.rx = .waitHeader → trRxByte c d e = .ok (
      if d = 0x0F then { e with rxBuf := e.rxBuf.set 0 0x0F, rxCount := 1, rx := .waitResponseCode } else e)) ∧
    (e.rx = .waitResponseCode → trRxByte c d e = .ok (
      if d = 0x72 ∨ d = 0x76 ∨ d = 0x73 then { e with rxBuf := e.rxBuf.set 1 d, rxCount := 2, rx := .accumulateData }
      else { e with rxCount := 0, rx := .waitHeader })) ∧
    (e.rx = .accumulateData → e.rxCount < 15 →
      trRxByte c d e = .ok { e with rxBuf := e.rxBuf.set e.rxCount d, rxCount := e.rxCount + 1 }) ∧
    (e.rx = .waitHeader → trRxList c [0x0F, 0x0F, 0x76] e = .ok { e with rxBuf := e.rxBuf.set 0 0x0F, rxCount := 0 })

/-- R136 to R141, R83: the receiver, fed the frame of a reply from its first state, whatever stands in the bytes that
are not read, does what the reply instruction does to the engine whose receive buffer holds that frame. -/
def Obligations.TrampReceiverDecodesReply : Prop :=
  ∀ (s : State) (e : TrEngine) (i : Instr) (f : List Byte), s.engine = .tramp e → e.Wf s.cfg → e.rx = .waitHeader →
    decode s.cfg (.trReply f) = .ok i →
    ∃ e', trRxList s.cfg f e = .ok e' ∧
      exec i { s with engine := .tramp { e with rxBuf := f } } = .next { s with engine := .tramp e' }

/-- R140: a frame of 16 bytes with a recognised code and a wrong checksum or terminator is discarded and counted;
nothing else changes but the receive buffer. -/
def Obligations.TrampReceiverDiscardsBadFrame : Prop :=
  ∀ (c : Config) (e : TrEngine) (code : Byte) (d : List Byte), e.Wf c → e.rx = .waitHeader →
    code ∈ ([0x72, 0x76, 0x73] : List Byte) → d.length = 14 →
    ¬ (d[12]? = some (trampChecksum (0x0F :: code :: d)) ∧ d[13]? = some 0x00) →
    trRxList c (0x0F :: code :: d) e = .ok { e with
      rxBuf := 0x0F :: code :: d, badFrame := (e.badFrame + 1) % 2 ^ c.cntWidth }

/-! The TRAMP engine. -/

/-- R146: the step of the states other than the frequency/power/pit monitor, in a POLL without RX bytes. -/
def Obligations.TrampStepOutsideMonitor : Prop :=
  ∀ (s : State) (e : TrEngine), s.engine = .tramp e →
    let waited (p : Nat) : Prop := ∀ t, e.lastReq = some t → p ≤ elapsed s.cfg s.now t
    let sent (c : Byte) : List TxEvent := s.tx ++ [.group [0, 0x0F, c, 0, 0, 0, 0, 0, 0, 0, 0, 0, 0, 0, 0, c, 0], .flush]
    (e.state = .offline → waited s.cfg.trInitPeriodMs → exec (.poll []) s = .next { s with
      engine := .tramp { e with lastReq := some s.now }, tx := sent 0x72, result := some ⟨true, 0⟩ }) ∧
    (e.state = .init → waited s.cfg.trInitPeriodMs → exec (.poll []) s = .next { s with
      engine := .tramp { e with lastReq := some s.now, lastStatus := some s.now }, tx := sent 0x76
      result := some ⟨true, 0⟩ }) ∧
    (e.state = .offline ∨ e.state = .init → ¬ waited s.cfg.trInitPeriodMs →
      exec (.poll []) s = .next { s with result := some ⟨true, 0⟩ }) ∧
    (e.state = .monTemp → waited 200 → exec (.poll []) s = .next { s with
      engine := .tramp { e with lastReq := some s.now, state := .monFreqPwrPit }, tx := sent 0x73
      result := some ⟨true, 0⟩ }) ∧
    (e.state = .config → waited 200 → exec (.poll []) s = .next { s with
      engine := .tramp { e with lastReq := some s.now, lastStatus := some s.now, state := .monFreqPwrPit }
      tx := sent 0x76, result := some ⟨true, 0⟩ }) ∧
    (e.state = .monFreqPwrPit ∨ e.state = .monTemp ∨ e.state = .config → ¬ waited 200 →
      exec (.poll []) s = .next { s with result := some ⟨true, 0⟩ })

/-- R146, R147: the frequency/power/pit monitor once 200 ms have passed: with budget left, one correction for the first
difference in the order frequency, power, pit mode, where the race lock hides frequency and power; with nothing to
correct, the budget is full again; then the periodic status query. -/
def Obligations.TrampMonitorConverges : Prop :=
  ∀ (s : State) (e : TrEngine), s.engine = .tramp e → e.state = .monFreqPwrPit →
    (∀ t, e.lastReq = some t → 200 ≤ elapsed s.cfg s.now t) →
    let locked : Prop := e.ctrlFlags &&& s.cfg.trRaceLockMask ≠ 0
    let freqDiffers : Prop := ¬ locked ∧ e.desFreq ≠ 0 ∧ e.desFreq ≠ e.obsFreq
    let powerDiffers : Prop := ¬ locked ∧ e.desPower ≠ 0 ∧ e.desPower ≠ e.obsPower
    let pitDiffers : Prop := (e.desPit = .on ∧ e.obsPit = false) ∨ (e.desPit = .off ∧ e.obsPit = true)
    let corrected (f : List Byte) : State := { s with
      engine := .tramp { e with lastReq := some s.now, retry := e.retry - 1, state := .config }
      tx := s.tx ++ [.group (0x00 :: f), .flush], result := some ⟨true, 0⟩ }
    let polled (retry : Nat) : State :=
      if ∀ t, e.lastStatus = some t → 1000 ≤ elapsed s.cfg s.now t then { s with
        engine := .tramp { e with lastReq := some s.now, lastStatus := some s.now, retry := retry, state := .monTemp }
        tx := s.tx ++ [.group (0x00 :: trStatusQueryFrame), .flush], result := some ⟨true, 0⟩ }
      else { s with engine := .tramp { e with retry := retry }, result := some ⟨true, 0⟩ }
    (0 < e.retry → freqDiffers → exec (.poll []) s = .next (corrected (trSetFrequencyFrame e.desFreq))) ∧
    (0 < e.retry → ¬ freqDiffers → powerDiffers →
      exec (.poll []) s = .next (corrected (trSetPowerFrame e.desPower))) ∧
    (0 < e.retry → ¬ freqDiffers → ¬ powerDiffers → pitDiffers →
      exec (.poll []) s = .next (corrected (trSetActiveFrame s.cfg (decide (e.desPit = .on))))) ∧
    (0 < e.retry → ¬ freqDiffers → ¬ powerDiffers → ¬ pitDiffers → exec (.poll []) s = .next (polled 20)) ∧
    (e.retry = 0 → exec (.poll []) s = .next (polled 0))

/-- R150, R151, R163, R164: TRAMP SET_FREQ and SET_POWER record the desired value, refill the budget, and send at once
unless race-locked; SET_FREQ fails out of range, SET_POWER takes every value. -/
def Obligations.TrampSetFreqAndPower : Prop :=
  ∀ (s : State) (e : TrEngine) (v : Half) (hi lo : Byte), s.engine = .tramp e → v.toNat = hi.toNat * 256 + lo.toNat →
    let locked : Prop := e.ctrlFlags &&& s.cfg.trRaceLockMask ≠ 0
    let sent (c : Byte) : List TxEvent :=
      s.tx ++ [.group [0, 0x0F, c, lo, hi, 0, 0, 0, 0, 0, 0, 0, 0, 0, 0, c + lo + hi, 0], .flush]
    (v.toNat < 5000 ∨ 5999 < v.toNat → exec (.setFreq v) s = .next { s with result := some ⟨false, 0⟩ }) ∧
    (5000 ≤ v.toNat → v.toNat ≤ 5999 → ¬ locked → exec (.setFreq v) s = .next { s with
      engine := .tramp { e with desFreq := v, retry := 20, lastReq := some s.now }, tx := sent 0x46
      result := some ⟨true, 0⟩ }) ∧
    (5000 ≤ v.toNat → v.toNat ≤ 5999 → locked → exec (.setFreq v) s = .next { s with
      engine := .tramp { e with desFreq := v, retry := 20 }, result := some ⟨true, 0⟩ }) ∧
    (¬ locked → exec (.setPower v) s = .next { s with
      engine := .tramp { e with desPower := v, retry := 20, lastReq := some s.now }, tx := sent 0x50
      result := some ⟨true, 0⟩ }) ∧
    (locked → exec (.setPower v) s = .next { s with
      engine := .tramp { e with desPower := v, retry := 20 }, result := some ⟨true, 0⟩ })

/-- R152, R153, R165, R166: TRAMP SET_PIT always sends, with the "inactive" parameter for pit mode on; SET_BANDCH fails
and changes nothing. -/
def Obligations.TrampSetPitAndBandCh : Prop :=
  ∀ (s : State) (e : TrEngine) (on : Bool) (hi lo band channel : Byte), s.engine = .tramp e →
    (if on then s.cfg.trPitInactive else s.cfg.trPitActive).toNat = hi.toNat * 256 + lo.toNat →
    exec (.setPit on) s = .next { s with
      engine := .tramp { e with desPit := if on then .on else .off, retry := 20, lastReq := some s.now }
      tx := s.tx ++ [.group [0, 0x0F, 0x49, lo, hi, 0, 0, 0, 0, 0, 0, 0, 0, 0, 0, 0x49 + lo + hi, 0], .flush]
      result := some ⟨true, 0⟩ } ∧
    exec (.setBandCh band channel) s = .next { s with result := some ⟨false, 0⟩ }

/-- R148: the budget changes only so: an accepted setter sets it to 20; a POLL whose step (after its RX bytes) finds a
difference and sends its correction lowers it by 1, and only from at least 1; a POLL whose step finds it at least 1 and
nothing differing sets it to 20. Anything else leaves it. -/
def Obligations.RetryBudgetChanges : Prop :=
  ∀ (i : Instr) (s t : State) (e e' : TrEngine), s.engine = .tramp e → replacesEngine i = false →
    exec i s = .next t → t.engine = .tramp e' →
    let locked (e : TrEngine) : Prop := e.ctrlFlags &&& s.cfg.trRaceLockMask ≠ 0
    let freqDiffers (e : TrEngine) : Prop := ¬ locked e ∧ e.desFreq ≠ 0 ∧ e.desFreq ≠ e.obsFreq
    let powerDiffers (e : TrEngine) : Prop := ¬ locked e ∧ e.desPower ≠ 0 ∧ e.desPower ≠ e.obsPower
    let pitDiffers (e : TrEngine) : Prop := (e.desPit = .on ∧ e.obsPit = false) ∨ (e.desPit = .off ∧ e.obsPit = true)
    let sent (f : List Byte) : Prop := t.tx = s.tx ++ [.group (0x00 :: f), .flush]
    (∀ v on, i = .setFreq v ∨ i = .setPower v ∨ i = .setPit on →
      e'.retry = if t.result = some ⟨true, 0⟩ then 20 else e.retry) ∧
    (∀ rx, i = .poll rx → ∃ e1, trRxList s.cfg rx e = .ok e1 ∧ e1.retry = e.retry ∧
      (e'.retry = e.retry ∨
       (e1.state = .monFreqPwrPit ∧ e.retry = e'.retry + 1 ∧
        ((freqDiffers e1 ∧ sent (trSetFrequencyFrame e1.desFreq)) ∨
         (¬ freqDiffers e1 ∧ powerDiffers e1 ∧ sent (trSetPowerFrame e1.desPower)) ∨
         (¬ freqDiffers e1 ∧ ¬ powerDiffers e1 ∧ pitDiffers e1 ∧
           sent (trSetActiveFrame s.cfg (decide (e1.desPit = .on)))))) ∨
       (e1.state = .monFreqPwrPit ∧ 0 < e.retry ∧ ¬ freqDiffers e1 ∧ ¬ powerDiffers e1 ∧ ¬ pitDiffers e1 ∧
        e'.retry = 20))) ∧
    ((∀ v on rx, i ≠ .setFreq v ∧ i ≠ .setPower v ∧ i ≠ .setPit on ∧ i ≠ .poll rx) → e'.retry = e.retry)

/-- R146 (a): online, a POLL sends a frame only when 200 ms have passed since the last TRAMP frame of any kind, whatever
it receives. -/
def Obligations.TrampFramesAreSpaced : Prop :=
  ∀ (s t : State) (e : TrEngine) (rx : List Byte) (last : Nat), s.engine = .tramp e →
    e.state = .monFreqPwrPit ∨ e.state = .monTemp ∨ e.state = .config → e.lastReq = some last →
    exec (.poll rx) s = .next t → t.tx = s.tx ∨ 200 ≤ elapsed s.cfg s.now last

/-! The machine as a whole. -/

/-- R26, R27: only SWITCH_PROTOCOL writes the protocol, only INIT and SWITCH_PROTOCOL create or discard an engine, and
nothing writes the parameters. -/
def Obligations.EngineLifetime : Prop :=
  ∀ (i : Instr) (s t : State), exec i s = .next t →
    t.cfg = s.cfg ∧ ((∀ p, i ≠ .switchProtocol p) → t.proto = s.proto) ∧
    (replacesEngine i = false →
      (s.engine = .none ↔ t.engine = .none) ∧ ((∃ e, s.engine = .sa e) ↔ ∃ e, t.engine = .sa e) ∧
      ((∃ e, s.engine = .tramp e) ↔ ∃ e, t.engine = .tramp e))

/-- R64, R161: an instruction appends to the TX stream nothing, one frame with its flush, or (INIT only) one
configuration request; what stands there stays. -/
def Obligations.TxStreamOnlyGrows : Prop :=
  ∀ (i : Instr) (s t : State), exec i s = .next t →
    t.tx = s.tx ∨ (∃ f, t.tx = s.tx ++ [.group (0x00 :: f), .flush]) ∨
    (i = .init true ∧ ∃ baud stop, t.tx = s.tx ++ [.configure baud 8 stop .none])

/-- Every step keeps the invariant: the queue's and the receivers' ranges, the outstanding command at the front of the
queue, the retry budget, the widths of the stamps and the counters, the engine of the selected protocol. -/
def Obligations.StepKeepsRanges : Prop :=
  ∀ s t : State, s.Inv → step s = .next t → t.Inv

/-- From a state that keeps the invariant every step answers with a next state, whatever word it is given: every buffer
index is in range, no dequeue meets an empty queue (R52, R120), and nothing is refused (R168). -/
def Obligations.StepNeverFaults : Prop := ∀ s : State, s.Inv → ∃ t, step s = .next t

/-- R156, R158, with R74, R76, R81 and R82: the TX stream is always a sequence of configuration requests and of groups,
each the stabilization byte and a whole frame followed by its flush, and each frame is one of the requests that the block
sends, with the layout and integrity byte of the protocol whose configuration was requested last. It is so after reset,
and every step keeps it. -/
def Obligations.StepKeepsTxWellFormed : Prop :=
  (∀ c, (State.resetWith c).TxWf) ∧ ∀ s t : State, s.Inv → s.TxWf → step s = .next t → t.TxWf

/-- R15, R191, R183: over less than `2^TIME_WIDTH` ms the elapsed time is the real interval, across wraparound too; so in
every run from reset in which the host keeps its duties, at every POLL each time stamp that the engine holds was written by
an earlier operation, the last one that changed it, at its time, and the elapsed time is the time since that operation. -/
def Obligations.HostDutiesMakeElapsedReal : Prop :=
  (∀ (c : Config) (a b : Nat), a ≤ b → b - a < 2 ^ c.timeWidth →
    elapsed c (b % 2 ^ c.timeWidth) (a % 2 ^ c.timeWidth) = b - a) ∧
  ∀ (c : Config) (cadence : Nat) (l : List HostEvent) (pre post : List HostOp) (p : HostOp) (k v : Nat),
    let s : State := { State.resetWith c with input := l.map (·.stim) }
    HostDuties cadence s l → hostTrace s l = pre ++ p :: post → p.event.isPoll = true →
    (engineStamps p.before.engine)[k]? = some (some v) →
    ∃ before o since, pre = before ++ o :: since ∧ o.changesStamp k ∧
      (engineStamps o.after.engine)[k]? = some (some v) ∧ (∀ m ∈ since, ¬ m.changesStamp k) ∧
      v = o.event.ms % 2 ^ c.timeWidth ∧ o.event.ms ≤ p.event.ms ∧
      elapsed c p.after.now v = p.event.ms - o.event.ms

/-- R127, R149: once ready, the engine stays ready until INIT or SWITCH_PROTOCOL replaces it. -/
def Obligations.ReadyIsSticky : Prop :=
  ∀ (i : Instr) (s t : State), replacesEngine i = false → readyFlag s = true → exec i s = .next t →
    readyFlag t = true

/-- R32, R47: what stands in queue slots that hold no live entry is never observed: an instruction gives the same
result and the same TX events, and leaves states that again differ in such slots only. -/
def Obligations.DeadSlotsAreUnobservable : Prop :=
  ∀ (i : Instr) (s s' t : State), s.Inv → s.SameButDeadSlots s' → exec i s = .next t →
    ∃ t', exec i s' = .next t' ∧ t.SameButDeadSlots t' ∧ t'.result = t.result ∧ t'.tx = t.tx
end

