-- ==== Sys2Proof/Laws/Bytes.lean ====
section
/-! SUPPORT. Small laws of the byte-order helpers, the CRC and the checksum. -/

namespace Sys2Proof.Machine

/-! Byte order. -/

/-- A half's high and low bytes, from its value (20_memory.md R54). -/
theorem bytes_of_half {v : Half} {hi lo : Byte} (h : v.toNat = hi.toNat * 256 + lo.toNat) :
    hiByte v = hi ∧ loByte v = lo := by
  have := hi.isLt
  have := lo.isLt
  constructor <;> apply BitVec.eq_of_toNat_eq
  · simp [hiByte, BitVec.extractLsb'_toNat, Nat.shiftRight_eq_div_pow]; omega
  · simp [loByte, BitVec.extractLsb'_toNat]; omega

theorem u16be_toNat (hi lo : Byte) : (u16be hi lo).toNat = hi.toNat * 256 + lo.toNat := by
  have := hi.isLt
  have := lo.isLt
  simp only [u16be, BitVec.toNat_append]
  rw [← Nat.shiftLeft_add_eq_or_of_lt lo.isLt, Nat.shiftLeft_eq]

@[simp] theorem u16be_bytes (v : Half) : u16be (hiByte v) (loByte v) = v := by
  apply BitVec.eq_of_toNat_eq
  rw [u16be_toNat]
  simp [hiByte, loByte, BitVec.extractLsb'_toNat, Nat.shiftRight_eq_div_pow]
  omega

@[simp] theorem u16le_bytes (v : Half) : u16le (loByte v) (hiByte v) = v := u16be_bytes v

@[simp] theorem hiByte_u16be (hi lo : Byte) : hiByte (u16be hi lo) = hi := (bytes_of_half (u16be_toNat hi lo)).1

@[simp] theorem loByte_u16be (hi lo : Byte) : loByte (u16be hi lo) = lo := (bytes_of_half (u16be_toNat hi lo)).2

@[simp] theorem hiByte_u16le (lo hi : Byte) : hiByte (u16le lo hi) = hi := hiByte_u16be hi lo

@[simp] theorem loByte_u16le (lo hi : Byte) : loByte (u16le lo hi) = lo := loByte_u16be hi lo

/-! The CRC. -/

@[simp] theorem crc8_nil : crc8 [] = 0 := rfl

theorem crc8_append (m n : List Byte) : crc8 (m ++ n) = n.foldl crcByte (crc8 m) := by
  simp [crc8, List.foldl_append]

theorem crc8_snoc (m : List Byte) (d : Byte) : crc8 (m ++ [d]) = crcByte (crc8 m) d := crc8_append m [d]

@[simp] theorem crcByte_self (c : Byte) : crcByte c c = 0 := by simp [crcByte]; decide

/-! Frames. -/

@[simp] theorem saRawFrame_length (cmd : Byte) (p : List Byte) : (saRawFrame cmd p).length = p.length + 5 := by
  simp [saRawFrame]

@[simp] theorem saRawFrame_cmd (cmd : Byte) (p : List Byte) : (saRawFrame cmd p).getD 2 0 = cmd := by
  simp [saRawFrame]

theorem trRawFrame_length (code : Byte) (d : List Byte) : (trRawFrame code d).length = d.length + 4 := by
  simp [trRawFrame]

/-- The checksum of a raw frame's twelve data bytes is the one it carries (30_encoding.md R81). -/
theorem trampChecksum_trRawFrame {code : Byte} {d : List Byte} (h : d.length = 12) :
    trampChecksum (trRawFrame code d) = trampChecksum ([0x0F, code] ++ d) := by
  unfold trampChecksum trRawFrame
  rw [List.drop_append_of_le_length (by simp), List.take_append_of_le_length (by simp [h])]

/-- A request frame, byte by byte (44_tramp_frames.md R133). -/
theorem trFrame_eq {code : Byte} {p : Half} {hi lo : Byte} (h : p.toNat = hi.toNat * 256 + lo.toNat) :
    trFrame code p = [0x0F, code, lo, hi, 0, 0, 0, 0, 0, 0, 0, 0, 0, 0, code + lo + hi, 0] := by
  obtain ⟨h1, h2⟩ := bytes_of_half h
  have hc : trampChecksum ([0x0F, code] ++ ([lo, hi] ++ List.replicate 10 0x00)) = code + lo + hi := by
    apply BitVec.eq_of_toNat_eq
    simp [trampChecksum]; omega
  simp only [trFrame, trRawFrame, h1, h2, hc]; rfl

end Sys2Proof.Machine
end

