-- ==== Sys2Proof/Laws/State.lean ====
section
/-! SUPPORT. One lemma per field per update of the state, true by rfl. -/

namespace Sys2Proof.Machine

@[simp] theorem ret_cfg (ok : Bool) (data : Word) (s : State) : (ret ok data s).cfg = s.cfg := rfl
@[simp] theorem ret_proto (ok : Bool) (data : Word) (s : State) : (ret ok data s).proto = s.proto := rfl
@[simp] theorem ret_engine (ok : Bool) (data : Word) (s : State) : (ret ok data s).engine = s.engine := rfl
@[simp] theorem ret_now (ok : Bool) (data : Word) (s : State) : (ret ok data s).now = s.now := rfl
@[simp] theorem ret_input (ok : Bool) (data : Word) (s : State) : (ret ok data s).input = s.input := rfl
@[simp] theorem ret_result (ok : Bool) (data : Word) (s : State) : (ret ok data s).result = some ⟨ok, data⟩ := rfl
@[simp] theorem ret_built (ok : Bool) (data : Word) (s : State) : (ret ok data s).built = s.built := rfl
@[simp] theorem ret_tx (ok : Bool) (data : Word) (s : State) : (ret ok data s).tx = s.tx := rfl

@[simp] theorem retFail_cfg (s : State) : (retFail s).cfg = s.cfg := rfl
@[simp] theorem retFail_proto (s : State) : (retFail s).proto = s.proto := rfl
@[simp] theorem retFail_engine (s : State) : (retFail s).engine = s.engine := rfl
@[simp] theorem retFail_now (s : State) : (retFail s).now = s.now := rfl
@[simp] theorem retFail_input (s : State) : (retFail s).input = s.input := rfl
@[simp] theorem retFail_result (s : State) : (retFail s).result = some ⟨false, 0⟩ := rfl
@[simp] theorem retFail_built (s : State) : (retFail s).built = s.built := rfl
@[simp] theorem retFail_tx (s : State) : (retFail s).tx = s.tx := rfl

@[simp] theorem retOk_cfg (s : State) : (retOk s).cfg = s.cfg := rfl
@[simp] theorem retOk_proto (s : State) : (retOk s).proto = s.proto := rfl
@[simp] theorem retOk_engine (s : State) : (retOk s).engine = s.engine := rfl
@[simp] theorem retOk_now (s : State) : (retOk s).now = s.now := rfl
@[simp] theorem retOk_input (s : State) : (retOk s).input = s.input := rfl
@[simp] theorem retOk_result (s : State) : (retOk s).result = some ⟨true, 0⟩ := rfl
@[simp] theorem retOk_built (s : State) : (retOk s).built = s.built := rfl
@[simp] theorem retOk_tx (s : State) : (retOk s).tx = s.tx := rfl

@[simp] theorem txFrame_cfg (f : List Byte) (s : State) : (txFrame f s).cfg = s.cfg := rfl
@[simp] theorem txFrame_proto (f : List Byte) (s : State) : (txFrame f s).proto = s.proto := rfl
@[simp] theorem txFrame_engine (f : List Byte) (s : State) : (txFrame f s).engine = s.engine := rfl
@[simp] theorem txFrame_now (f : List Byte) (s : State) : (txFrame f s).now = s.now := rfl
@[simp] theorem txFrame_input (f : List Byte) (s : State) : (txFrame f s).input = s.input := rfl
@[simp] theorem txFrame_result (f : List Byte) (s : State) : (txFrame f s).result = s.result := rfl
@[simp] theorem txFrame_built (f : List Byte) (s : State) : (txFrame f s).built = s.built := rfl
@[simp] theorem txFrame_tx (f : List Byte) (s : State) : (txFrame f s).tx = s.tx ++ [.group (0x00 :: f), .flush] := rfl

@[simp] theorem txConfigure_cfg (b d p : Nat) (s : State) : (txConfigure b d p s).cfg = s.cfg := rfl
@[simp] theorem txConfigure_proto (b d p : Nat) (s : State) : (txConfigure b d p s).proto = s.proto := rfl
@[simp] theorem txConfigure_engine (b d p : Nat) (s : State) : (txConfigure b d p s).engine = s.engine := rfl
@[simp] theorem txConfigure_now (b d p : Nat) (s : State) : (txConfigure b d p s).now = s.now := rfl
@[simp] theorem txConfigure_input (b d p : Nat) (s : State) : (txConfigure b d p s).input = s.input := rfl
@[simp] theorem txConfigure_result (b d p : Nat) (s : State) : (txConfigure b d p s).result = s.result := rfl
@[simp] theorem txConfigure_built (b d p : Nat) (s : State) : (txConfigure b d p s).built = s.built := rfl
@[simp] theorem txConfigure_tx (b d p : Nat) (s : State) : (txConfigure b d p s).tx = s.tx ++ [.configure b d p .none] := rfl

@[simp] theorem setEngine_cfg (g : Engine) (s : State) : (setEngine g s).cfg = s.cfg := rfl
@[simp] theorem setEngine_proto (g : Engine) (s : State) : (setEngine g s).proto = s.proto := rfl
@[simp] theorem setEngine_engine (g : Engine) (s : State) : (setEngine g s).engine = g := rfl
@[simp] theorem setEngine_now (g : Engine) (s : State) : (setEngine g s).now = s.now := rfl
@[simp] theorem setEngine_input (g : Engine) (s : State) : (setEngine g s).input = s.input := rfl
@[simp] theorem setEngine_result (g : Engine) (s : State) : (setEngine g s).result = s.result := rfl
@[simp] theorem setEngine_built (g : Engine) (s : State) : (setEngine g s).built = s.built := rfl
@[simp] theorem setEngine_tx (g : Engine) (s : State) : (setEngine g s).tx = s.tx := rfl

@[simp] theorem setBuilt_cfg (f : Option (List Byte)) (s : State) : (setBuilt f s).cfg = s.cfg := rfl
@[simp] theorem setBuilt_proto (f : Option (List Byte)) (s : State) : (setBuilt f s).proto = s.proto := rfl
@[simp] theorem setBuilt_engine (f : Option (List Byte)) (s : State) : (setBuilt f s).engine = s.engine := rfl
@[simp] theorem setBuilt_now (f : Option (List Byte)) (s : State) : (setBuilt f s).now = s.now := rfl
@[simp] theorem setBuilt_input (f : Option (List Byte)) (s : State) : (setBuilt f s).input = s.input := rfl
@[simp] theorem setBuilt_result (f : Option (List Byte)) (s : State) : (setBuilt f s).result = s.result := rfl
@[simp] theorem setBuilt_built (f : Option (List Byte)) (s : State) : (setBuilt f s).built = f := rfl
@[simp] theorem setBuilt_tx (f : Option (List Byte)) (s : State) : (setBuilt f s).tx = s.tx := rfl

@[simp] theorem takeStimulus_cfg (now : Nat) (rest : List Stimulus) (s : State) : (takeStimulus now rest s).cfg = s.cfg := rfl
@[simp] theorem takeStimulus_proto (now : Nat) (rest : List Stimulus) (s : State) : (takeStimulus now rest s).proto = s.proto := rfl
@[simp] theorem takeStimulus_engine (now : Nat) (rest : List Stimulus) (s : State) : (takeStimulus now rest s).engine = s.engine := rfl
@[simp] theorem takeStimulus_now (now : Nat) (rest : List Stimulus) (s : State) : (takeStimulus now rest s).now = now % 2 ^ s.cfg.timeWidth := rfl
@[simp] theorem takeStimulus_input (now : Nat) (rest : List Stimulus) (s : State) : (takeStimulus now rest s).input = rest := rfl
@[simp] theorem takeStimulus_result (now : Nat) (rest : List Stimulus) (s : State) : (takeStimulus now rest s).result = none := rfl
@[simp] theorem takeStimulus_built (now : Nat) (rest : List Stimulus) (s : State) : (takeStimulus now rest s).built = none := rfl
@[simp] theorem takeStimulus_tx (now : Nat) (rest : List Stimulus) (s : State) : (takeStimulus now rest s).tx = s.tx := rfl

@[simp] theorem presentWord_cfg (x : InWord) (s : State) : (presentWord x s).cfg = s.cfg := rfl
@[simp] theorem presentWord_proto (x : InWord) (s : State) : (presentWord x s).proto = s.proto := rfl
@[simp] theorem presentWord_engine (x : InWord) (s : State) : (presentWord x s).engine = s.engine := rfl
@[simp] theorem presentWord_now (x : InWord) (s : State) : (presentWord x s).now = s.now := rfl
@[simp] theorem presentWord_input (x : InWord) (s : State) : (presentWord x s).input = ⟨s.now, x⟩ :: s.input := rfl
@[simp] theorem presentWord_result (x : InWord) (s : State) : (presentWord x s).result = s.result := rfl
@[simp] theorem presentWord_built (x : InWord) (s : State) : (presentWord x s).built = s.built := rfl
@[simp] theorem presentWord_tx (x : InWord) (s : State) : (presentWord x s).tx = s.tx := rfl

@[simp] theorem txSent_cfg (f : Option (List Byte)) (s : State) : (txSent f s).cfg = s.cfg := by cases f <;> rfl
@[simp] theorem txSent_proto (f : Option (List Byte)) (s : State) : (txSent f s).proto = s.proto := by cases f <;> rfl
@[simp] theorem txSent_engine (f : Option (List Byte)) (s : State) : (txSent f s).engine = s.engine := by cases f <;> rfl
@[simp] theorem txSent_now (f : Option (List Byte)) (s : State) : (txSent f s).now = s.now := by cases f <;> rfl
@[simp] theorem txSent_input (f : Option (List Byte)) (s : State) : (txSent f s).input = s.input := by cases f <;> rfl
@[simp] theorem txSent_result (f : Option (List Byte)) (s : State) : (txSent f s).result = s.result := by cases f <;> rfl
@[simp] theorem txSent_built (f : Option (List Byte)) (s : State) : (txSent f s).built = s.built := by cases f <;> rfl

@[simp] theorem txSent_none (s : State) : txSent none s = s := rfl
@[simp] theorem txSent_some (f : List Byte) (s : State) : txSent (some f) s = txFrame f s := rfl

@[simp] theorem resetWith_cfg (c : Config) : (State.resetWith c).cfg = c := rfl
@[simp] theorem resetWith_proto (c : Config) : (State.resetWith c).proto = c.protoSel := rfl
@[simp] theorem resetWith_engine (c : Config) : (State.resetWith c).engine = .none := rfl
@[simp] theorem resetWith_now (c : Config) : (State.resetWith c).now = 0 := rfl
@[simp] theorem resetWith_input (c : Config) : (State.resetWith c).input = [] := rfl
@[simp] theorem resetWith_result (c : Config) : (State.resetWith c).result = none := rfl
@[simp] theorem resetWith_built (c : Config) : (State.resetWith c).built = none := rfl
@[simp] theorem resetWith_tx (c : Config) : (State.resetWith c).tx = [] := rfl

end Sys2Proof.Machine
end

