-- ==== Sys2Proof/Laws/Ops.lean ====
section
/-! SUPPORT. What each shared operation can do, said once. -/

namespace Sys2Proof.Machine

/-! Buffers. -/

theorem memRead_eq_ok {buf : List Byte} {i : Nat} {v : Byte} : memRead buf i = .ok v ↔ buf[i]? = some v := by
  unfold memRead; split <;> simp_all

theorem memWrite_eq_ok {buf b : List Byte} {i : Nat} {v : Byte} :
    memWrite buf i v = .ok b ↔ i < buf.length ∧ b = buf.set i v := by
  unfold memWrite; split <;> simp_all [eq_comm]

theorem memReadRange_eq_ok {buf b : List Byte} {n : Nat} :
    memReadRange buf n = .ok b ↔ n ≤ buf.length ∧ b = buf.take n := by
  unfold memReadRange; split <;> simp_all [eq_comm]

theorem slotRead_eq_ok {l : List Slot} {i : Nat} {x : Slot} : slotRead l i = .ok x ↔ l[i]? = some x := by
  unfold slotRead; split <;> simp_all

theorem slotWrite_eq_ok {l b : List Slot} {i : Nat} {x : Slot} :
    slotWrite l i x = .ok b ↔ i < l.length ∧ b = l.set i x := by
  unfold slotWrite; split <;> simp_all [eq_comm]

/-! Sequencing: an engine rule that answers has answered at each of its parts. -/

theorem bind_eq_ok {α β : Type} {x : Except Fault α} {f : α → Except Fault β} {r : β} :
    (x >>= f) = .ok r ↔ ∃ a, x = .ok a ∧ f a = .ok r := by
  cases x <;> simp [bind, Except.bind]

@[simp] theorem ok_bind {α β : Type} (a : α) (f : α → Except Fault β) : ((Except.ok a : Except Fault α) >>= f) = f a := rfl

@[simp] theorem pure_eq_ok {α : Type} (a : α) : (pure a : Except Fault α) = .ok a := rfl

/-! Numbers of a width that is a parameter. -/

theorem addMod_lt (w a b : Nat) : addMod w a b < 2 ^ w := Nat.mod_lt _ (Nat.two_pow_pos w)

theorem subMod_lt (w a b : Nat) : subMod w a b < 2 ^ w := Nat.mod_lt _ (Nat.two_pow_pos w)

/-- `-_w` is subtraction of integers modulo `2^w` (00_scope.md R10). -/
theorem subMod_eq_emod (w a b : Nat) : (subMod w a b : Int) = ((a : Int) - b) % 2 ^ w := by
  have hb := Nat.mod_lt b (Nat.two_pow_pos w)
  simp only [subMod]
  push_cast [hb.le]
  rw [show (a : Int) + (2 ^ w - (b : Int) % 2 ^ w) = ((a : Int) - (b : Int) % 2 ^ w) + 2 ^ w by ring]
  rw [Int.add_emod_right, Int.sub_emod, Int.emod_emod_of_dvd _ (dvd_refl _), ← Int.sub_emod]

/-- Elapsed time is the real interval, across wraparound (70_reset_and_hazards.md R191). -/
theorem subMod_of_mod {w a b : Nat} (h : b ≤ a) (hd : a - b < 2 ^ w) : subMod w (a % 2 ^ w) (b % 2 ^ w) = a - b := by
  have h1 := subMod_eq_emod w (a % 2 ^ w) (b % 2 ^ w)
  push_cast at h1
  rw [← Int.sub_emod] at h1
  have h2 : ((a : Int) - b) % 2 ^ w = ((a - b : Nat) : Int) := by
    rw [← Nat.cast_sub h]; exact_mod_cast Nat.mod_eq_of_lt hd
  omega

theorem count_lt (c : Config) (n : Nat) : count c n < 2 ^ c.cntWidth := addMod_lt _ _ _

/-! Time. -/

@[simp] theorem due_never (c : Config) (now p : Nat) : due c now none p = true := rfl

theorem due_some_iff {c : Config} {now t p : Nat} : due c now (some t) p = true ↔ p ≤ elapsed c now t := by
  rw [due]; exact decide_eq_true_iff

/-- `due` as the statements write it. -/
theorem due_iff {c : Config} {now p : Nat} {t : Option Nat} :
    due c now t p = true ↔ ∀ v, t = some v → p ≤ elapsed c now v := by
  cases t <;> simp [due]

/-! From an engine rule's answer to the operation's outcome. -/

theorem finishSaSetter_next {r : Except Fault (Option SaEngine)} {s t : State} (h : finishSaSetter r s = .next t) :
    (r = .ok none ∧ t = retFail s) ∨ ∃ e, r = .ok (some e) ∧ t = retOk (setEngine (.sa e) s) := by
  unfold finishSaSetter at h; split at h <;> simp_all [eq_comm]

theorem finishTrSetter_next {r : Option (TrEngine × Option (List Byte))} {s t : State}
    (h : finishTrSetter r s = .next t) :
    (r = none ∧ t = retFail s) ∨ ∃ e f, r = some (e, f) ∧ t = retOk (txSent f (setEngine (.tramp e) s)) := by
  unfold finishTrSetter at h; split at h <;> simp_all [eq_comm]

theorem onSa_next {r : SaEngine → Except Fault SaEngine} {s t : State} (h : onSa r s = .next t) :
    ((∀ e, s.engine ≠ .sa e) ∧ t = s) ∨ ∃ e e', s.engine = .sa e ∧ r e = .ok e' ∧ t = setEngine (.sa e') s := by
  unfold onSa at h; split at h
  · split at h <;> simp_all
  · simp_all

theorem onTr_next {r : TrEngine → Except Fault TrEngine} {s t : State} (h : onTr r s = .next t) :
    ((∀ e, s.engine ≠ .tramp e) ∧ t = s) ∨
    ∃ e e', s.engine = .tramp e ∧ r e = .ok e' ∧ t = setEngine (.tramp e') s := by
  unfold onTr at h; split at h
  · split at h <;> simp_all
  · simp_all

theorem buildSa_next {f : Option (List Byte)} {s t : State} (h : buildSa f s = .next t) :
    ((∀ e, s.engine ≠ .sa e) ∧ t = s) ∨ ((∃ e, s.engine = .sa e) ∧ t = setBuilt f s) := by
  unfold buildSa at h; split at h <;> simp_all [eq_comm]

theorem buildTr_next {f : Option (List Byte)} {s t : State} (h : buildTr f s = .next t) :
    ((∀ e, s.engine ≠ .tramp e) ∧ t = s) ∨ ((∃ e, s.engine = .tramp e) ∧ t = setBuilt f s) := by
  unfold buildTr at h; split at h <;> simp_all [eq_comm]

theorem onSa_of_ok {r : SaEngine → Except Fault SaEngine} {s : State} {e e' : SaEngine} (hs : s.engine = .sa e)
    (h : r e = .ok e') : onSa r s = .next (setEngine (.sa e') s) := by
  simp [onSa, hs, h]

theorem onTr_of_ok {r : TrEngine → Except Fault TrEngine} {s : State} {e e' : TrEngine} (hs : s.engine = .tramp e)
    (h : r e = .ok e') : onTr r s = .next (setEngine (.tramp e') s) := by
  simp [onTr, hs, h]

theorem buildSa_of_sa {f : Option (List Byte)} {s : State} {e : SaEngine} (hs : s.engine = .sa e) :
    buildSa f s = .next (setBuilt f s) := by
  simp [buildSa, hs]

theorem buildTr_of_tramp {f : Option (List Byte)} {s : State} {e : TrEngine} (hs : s.engine = .tramp e) :
    buildTr f s = .next (setBuilt f s) := by
  simp [buildTr, hs]

/-! The Controller operations, by the engine in the slot. -/

theorem execPoll_none {rx : List Byte} {s : State} (hs : s.engine = .none) : execPoll rx s = .next (retFail s) := by
  simp [execPoll, hs]

theorem execPoll_sa {rx : List Byte} {s : State} {e e' : SaEngine} {f : Option (List Byte)} (hs : s.engine = .sa e)
    (h : saPoll s.cfg s.now rx e = .ok (e', f)) :
    execPoll rx s = .next (retOk (txSent f (setEngine (.sa e') s))) := by
  simp [execPoll, hs, h]

theorem execPoll_tramp {rx : List Byte} {s : State} {e e' : TrEngine} {f : Option (List Byte)}
    (hs : s.engine = .tramp e) (h : trPoll s.cfg s.now rx e = .ok (e', f)) :
    execPoll rx s = .next (retOk (txSent f (setEngine (.tramp e') s))) := by
  simp [execPoll, hs, h]

/-- What POLL can do (46_host_ops.md R161). -/
theorem execPoll_next {rx : List Byte} {s t : State} (h : execPoll rx s = .next t) :
    (s.engine = .none ∧ t = retFail s) ∨
    (∃ e e' f, s.engine = .sa e ∧ saPoll s.cfg s.now rx e = .ok (e', f) ∧
      t = retOk (txSent f (setEngine (.sa e') s))) ∨
    ∃ e e' f, s.engine = .tramp e ∧ trPoll s.cfg s.now rx e = .ok (e', f) ∧
      t = retOk (txSent f (setEngine (.tramp e') s)) := by
  unfold execPoll at h
  split at h
  · exact .inl ⟨by assumption, by simpa using h.symm⟩
  · split at h
    · simp at h
    · exact .inr (.inl ⟨_, _, _, by assumption, by assumption, by simpa using h.symm⟩)
  · split at h
    · simp at h
    · exact .inr (.inr ⟨_, _, _, by assumption, by assumption, by simpa using h.symm⟩)

theorem execIsReady_none {s : State} (hs : s.engine = .none) : execIsReady s = .next (retFail s) := by
  simp [execIsReady, hs]

theorem execIsReady_sa {s : State} {e : SaEngine} (hs : s.engine = .sa e) :
    execIsReady s = .next (ret true (flagWord (saReady e)) s) := by
  simp [execIsReady, hs]

theorem execIsReady_tramp {s : State} {e : TrEngine} (hs : s.engine = .tramp e) :
    execIsReady s = .next (ret true (flagWord e.ready) s) := by
  simp [execIsReady, hs]

theorem execSetFreq_none {f : Half} {s : State} (hs : s.engine = .none) : execSetFreq f s = .next (retFail s) := by
  simp [execSetFreq, hs]

theorem execSetFreq_sa {f : Half} {s : State} {e : SaEngine} (hs : s.engine = .sa e) :
    execSetFreq f s = finishSaSetter (saSetFrequency f e) s := by
  simp [execSetFreq, hs]

theorem execSetFreq_tramp {f : Half} {s : State} {e : TrEngine} (hs : s.engine = .tramp e) :
    execSetFreq f s = finishTrSetter (trSetFrequency s.cfg s.now f e) s := by
  simp [execSetFreq, hs]

theorem execSetPower_none {mw : Half} {s : State} (hs : s.engine = .none) : execSetPower mw s = .next (retFail s) := by
  simp [execSetPower, hs]

theorem execSetPower_sa {mw : Half} {s : State} {e : SaEngine} (hs : s.engine = .sa e) :
    execSetPower mw s = finishSaSetter (saSetPower s.cfg mw e) s := by
  simp [execSetPower, hs]

theorem execSetPower_tramp {mw : Half} {s : State} {e : TrEngine} (hs : s.engine = .tramp e) :
    execSetPower mw s = finishTrSetter (trSetPower s.cfg s.now mw e) s := by
  simp [execSetPower, hs]

theorem execSetPit_none {on : Bool} {s : State} (hs : s.engine = .none) : execSetPit on s = .next (retFail s) := by
  simp [execSetPit, hs]

theorem execSetPit_sa {on : Bool} {s : State} {e : SaEngine} (hs : s.engine = .sa e) :
    execSetPit on s = finishSaSetter (saSetPitMode on e) s := by
  simp [execSetPit, hs]

theorem execSetPit_tramp {on : Bool} {s : State} {e : TrEngine} (hs : s.engine = .tramp e) :
    execSetPit on s = finishTrSetter (trSetPitMode s.cfg s.now on e) s := by
  simp [execSetPit, hs]

theorem execSetBandCh_none {b ch : Byte} {s : State} (hs : s.engine = .none) :
    execSetBandCh b ch s = .next (retFail s) := by
  simp [execSetBandCh, hs]

theorem execSetBandCh_sa {b ch : Byte} {s : State} {e : SaEngine} (hs : s.engine = .sa e) :
    execSetBandCh b ch s = finishSaSetter (saSetBandCh b ch e) s := by
  simp [execSetBandCh, hs]

theorem execSetBandCh_tramp {b ch : Byte} {s : State} {e : TrEngine} (hs : s.engine = .tramp e) :
    execSetBandCh b ch s = .next (retFail s) := by
  simp [execSetBandCh, hs]

/-- REG_READ answers or fails; it writes nothing else (46_host_ops.md R167). -/
theorem execRegRead_next {id : Byte} {s t : State} (h : execRegRead id s = .next t) :
    (regRead s id = none ∧ t = retFail s) ∨ ∃ v, regRead s id = some v ∧ t = ret true v s := by
  unfold execRegRead at h
  split at h
  · exact .inl ⟨by assumption, by simpa using h.symm⟩
  · exact .inr ⟨_, by assumption, by simpa using h.symm⟩

end Sys2Proof.Machine
end

