-- ==== Sys2Proof/Laws/PerInstr.lean ====
section
/-! SUPPORT. The laws stated for every instruction, one lemma per constructor. -/

namespace Sys2Proof.Laws
open Sys2Proof.Machine

/-- The byte of a word that spec/opcode_table.json's match and mask apply to: `op` (30_encoding.md R71), the command
byte at frame byte 2 (R74) or the code at frame byte 1 (R81). -/
def keyByte : InWord → Byte
  | .hostOp op _ _ _ => op
  | .saRequest f => f.getD 2 0
  | .saReply f => f.getD 2 0
  | .trRequest f => f.getD 1 0
  | .trReply f => f.getD 1 0

/-- The table's match value of an instruction's row; none for the catch-all reply row, whose mask is 0 (R78, R79). -/
def rowByte : Instr → Option Byte
  | .init _ => some 0x01
  | .poll _ => some 0x02
  | .isReady => some 0x03
  | .setFreq _ => some 0x04
  | .setPower _ => some 0x05
  | .setPit _ => some 0x06
  | .setBandCh _ _ => some 0x07
  | .protocolInUse => some 0x08
  | .switchProtocol _ => some 0x09
  | .bandChToFreq _ _ => some 0x0A
  | .crc8 _ => some 0x0B
  | .trampChecksum _ => some 0x0C
  | .regRead _ => some 0x0D
  | .saValidate _ => some 0x0E
  | .trampValidate _ => some 0x0F
  | .saGetSettings => some 0x03
  | .saSetPower _ => some 0x05
  | .saSetChannel _ => some 0x07
  | .saSetFrequency _ => some 0x09
  | .saSetMode _ => some 0x0B
  | .saReplySettingsV1 _ => some 0x01
  | .saReplySettingsV2 _ => some 0x09
  | .saReplySettingsV21 _ => some 0x11
  | .saReplySetPower _ => some 0x02
  | .saReplySetChannel _ => some 0x03
  | .saReplySetFrequency _ => some 0x04
  | .saReplySetMode _ => some 0x05
  | .saReplyOther _ _ => none
  | .trResetQuery => some 0x72
  | .trStatusQuery => some 0x76
  | .trTempQuery => some 0x73
  | .trSetFrequency _ => some 0x46
  | .trSetPower _ => some 0x50
  | .trSetActive _ => some 0x49
  | .trReplyReset _ _ _ => some 0x72
  | .trReplyStatus _ _ _ _ _ => some 0x76
  | .trReplyTemp _ => some 0x73

/-- A well-formed instruction's encoding carries its row's match value; the catch-all row's carries no listed code. -/
def OpcodeByte.Statement (i : Instr) : Prop :=
  ∀ c : Config, i.wellFormed c = true →
    match rowByte i with
    | some b => keyByte (encode c i) = b
    | none => keyByte (encode c i) ∉ listedReplyCodes

/-- The lemma of every row but the catch-all: the match value does not depend on the operands' well-formedness. -/
theorem opcodeByte_of_row {i : Instr} {b : Byte} (hb : rowByte i = some b)
    (h : ∀ c, keyByte (encode c i) = b) : OpcodeByte.Statement i := by
  intro c _
  rw [hb]
  exact h c

theorem OpcodeByte.init (present : Bool) : OpcodeByte.Statement (.init present) :=
  opcodeByte_of_row rfl fun _ => rfl

theorem OpcodeByte.poll (rx : List Byte) : OpcodeByte.Statement (.poll rx) :=
  opcodeByte_of_row rfl fun _ => rfl

theorem OpcodeByte.isReady : OpcodeByte.Statement .isReady :=
  opcodeByte_of_row rfl fun _ => rfl

theorem OpcodeByte.setFreq (mhz : Half) : OpcodeByte.Statement (.setFreq mhz) :=
  opcodeByte_of_row rfl fun _ => rfl

theorem OpcodeByte.setPower (mw : Half) : OpcodeByte.Statement (.setPower mw) :=
  opcodeByte_of_row rfl fun _ => rfl

theorem OpcodeByte.setPit (enable : Bool) : OpcodeByte.Statement (.setPit enable) :=
  opcodeByte_of_row rfl fun _ => rfl

theorem OpcodeByte.setBandCh (band channel : Byte) : OpcodeByte.Statement (.setBandCh band channel) :=
  opcodeByte_of_row rfl fun _ => rfl

theorem OpcodeByte.protocolInUse : OpcodeByte.Statement .protocolInUse :=
  opcodeByte_of_row rfl fun _ => rfl

theorem OpcodeByte.switchProtocol (sel : Proto) : OpcodeByte.Statement (.switchProtocol sel) :=
  opcodeByte_of_row rfl fun _ => rfl

theorem OpcodeByte.bandChToFreq (band channel : Byte) : OpcodeByte.Statement (.bandChToFreq band channel) :=
  opcodeByte_of_row rfl fun _ => rfl

theorem OpcodeByte.crc8 (m : List Byte) : OpcodeByte.Statement (.crc8 m) :=
  opcodeByte_of_row rfl fun _ => rfl

theorem OpcodeByte.trampChecksum (f : List Byte) : OpcodeByte.Statement (.trampChecksum f) :=
  opcodeByte_of_row rfl fun _ => rfl

theorem OpcodeByte.regRead (id : Byte) : OpcodeByte.Statement (.regRead id) :=
  opcodeByte_of_row rfl fun _ => rfl

theorem OpcodeByte.saValidate (m : List Byte) : OpcodeByte.Statement (.saValidate m) :=
  opcodeByte_of_row rfl fun _ => rfl

theorem OpcodeByte.trampValidate (f : List Byte) : OpcodeByte.Statement (.trampValidate f) :=
  opcodeByte_of_row rfl fun _ => rfl

theorem OpcodeByte.saGetSettings : OpcodeByte.Statement .saGetSettings :=
  opcodeByte_of_row rfl fun _ => rfl

theorem OpcodeByte.saSetPower (pw : Byte) : OpcodeByte.Statement (.saSetPower pw) :=
  opcodeByte_of_row rfl fun _ => rfl

theorem OpcodeByte.saSetChannel (idx : Byte) : OpcodeByte.Statement (.saSetChannel idx) :=
  opcodeByte_of_row rfl fun _ => rfl

theorem OpcodeByte.saSetFrequency (v : Half) : OpcodeByte.Statement (.saSetFrequency v) :=
  opcodeByte_of_row rfl fun _ => rfl

theorem OpcodeByte.saSetMode (m : Byte) : OpcodeByte.Statement (.saSetMode m) :=
  opcodeByte_of_row rfl fun _ => rfl

theorem OpcodeByte.saReplySettingsV1 (p : List Byte) : OpcodeByte.Statement (.saReplySettingsV1 p) :=
  opcodeByte_of_row rfl fun _ => rfl

theorem OpcodeByte.saReplySettingsV2 (p : List Byte) : OpcodeByte.Statement (.saReplySettingsV2 p) :=
  opcodeByte_of_row rfl fun _ => rfl

theorem OpcodeByte.saReplySettingsV21 (p : List Byte) : OpcodeByte.Statement (.saReplySettingsV21 p) :=
  opcodeByte_of_row rfl fun _ => rfl

theorem OpcodeByte.saReplySetPower (p : List Byte) : OpcodeByte.Statement (.saReplySetPower p) :=
  opcodeByte_of_row rfl fun _ => rfl

theorem OpcodeByte.saReplySetChannel (p : List Byte) : OpcodeByte.Statement (.saReplySetChannel p) :=
  opcodeByte_of_row rfl fun _ => rfl

theorem OpcodeByte.saReplySetFrequency (p : List Byte) : OpcodeByte.Statement (.saReplySetFrequency p) :=
  opcodeByte_of_row rfl fun _ => rfl

theorem OpcodeByte.saReplySetMode (p : List Byte) : OpcodeByte.Statement (.saReplySetMode p) :=
  opcodeByte_of_row rfl fun _ => rfl

theorem OpcodeByte.trResetQuery : OpcodeByte.Statement .trResetQuery :=
  opcodeByte_of_row rfl fun _ => rfl

theorem OpcodeByte.trStatusQuery : OpcodeByte.Statement .trStatusQuery :=
  opcodeByte_of_row rfl fun _ => rfl

theorem OpcodeByte.trTempQuery : OpcodeByte.Statement .trTempQuery :=
  opcodeByte_of_row rfl fun _ => rfl

theorem OpcodeByte.trSetFrequency (mhz : Half) : OpcodeByte.Statement (.trSetFrequency mhz) :=
  opcodeByte_of_row rfl fun _ => rfl

theorem OpcodeByte.trSetPower (mw : Half) : OpcodeByte.Statement (.trSetPower mw) :=
  opcodeByte_of_row rfl fun _ => rfl

theorem OpcodeByte.trSetActive (pitOn : Bool) : OpcodeByte.Statement (.trSetActive pitOn) :=
  opcodeByte_of_row rfl fun _ => rfl

theorem OpcodeByte.trReplyReset (minFreq maxFreq maxPower : Half) : OpcodeByte.Statement (.trReplyReset minFreq maxFreq maxPower) :=
  opcodeByte_of_row rfl fun _ => rfl

theorem OpcodeByte.trReplyStatus (freq power : Half) (ctrl : Byte) (pit : Bool) (actPower : Half) : OpcodeByte.Statement (.trReplyStatus freq power ctrl pit actPower) :=
  opcodeByte_of_row rfl fun _ => rfl

theorem OpcodeByte.trReplyTemp (temp : Half) : OpcodeByte.Statement (.trReplyTemp temp) :=
  opcodeByte_of_row rfl fun _ => rfl

theorem OpcodeByte.saReplyOther (code : Byte) (p : List Byte) : OpcodeByte.Statement (.saReplyOther code p) := by
  intro c h
  simp only [Instr.wellFormed, Bool.and_eq_true, Bool.not_eq_true'] at h
  have h := h.1
  simp only [List.contains_eq_mem, decide_eq_false_iff_not] at h
  simpa [rowByte, keyByte, encode, saRawFrame] using h

end Sys2Proof.Laws
end

