-- ==== Sys2Proof/Laws/SmartAudio.lean ====
section
/-! SUPPORT. What the SmartAudio rules can do, said once: the queue, the completion, the receiver, the initialization
step and the scheduler. -/

namespace Sys2Proof.Machine

/-! The queue. -/

theorem queuePush_full {q : SaQueue} (f : List Byte) (id : CmdId) (h : q.count = 4) : queuePush f id q = .ok q := by
  simp [queuePush, saQueueCap, h]

theorem queuePush_room {q : SaQueue} (f : List Byte) (id : CmdId) (hl : q.slots.length = 4) (h : q.count ≠ 4) :
    queuePush f id q = .ok { q with
      slots := q.slots.set ((q.head + q.count) % 4) ⟨id, f⟩, count := q.count + 1 } := by
  have hi : (q.head + q.count) % 4 < 4 := Nat.mod_lt _ (by omega)
  simp [queuePush, saQueueCap, h, slotWrite, slotIndex, hl, hi]

theorem queuePush_ok {q q' : SaQueue} {f : List Byte} {id : CmdId} (h : queuePush f id q = .ok q') :
    (q.count = 4 ∧ q' = q) ∨
    (q.count ≠ 4 ∧ (q.head + q.count) % 4 < q.slots.length ∧
      q' = { q with slots := q.slots.set ((q.head + q.count) % 4) ⟨id, f⟩, count := q.count + 1 }) := by
  unfold queuePush at h
  split at h
  · exact .inl ⟨by assumption, by simpa using h.symm⟩
  · rename_i hc
    obtain ⟨b, hb, hr⟩ := bind_eq_ok.1 h
    obtain ⟨hi, rfl⟩ := slotWrite_eq_ok.1 hb
    exact .inr ⟨hc, hi, by simpa [slotIndex, saQueueCap] using hr.symm⟩

theorem queuePop_pos {q : SaQueue} (h : 0 < q.count) :
    queuePop q = .ok { q with head := (q.head + 1) % 4, count := q.count - 1 } := by
  simp [queuePop, saQueueCap, Nat.pos_iff_ne_zero.1 h]

theorem queuePop_ok {q q' : SaQueue} (h : queuePop q = .ok q') :
    0 < q.count ∧ q' = { q with head := (q.head + 1) % 4, count := q.count - 1 } := by
  unfold queuePop at h
  split at h
  · simp at h
  · exact ⟨Nat.pos_of_ne_zero (by assumption), by simpa [saQueueCap] using h.symm⟩

theorem queueFront_eq_ok {q : SaQueue} {x : Slot} : queueFront q = .ok x ↔ q.slots[q.head]? = some x :=
  slotRead_eq_ok

theorem saEnqueue_ok {f : List Byte} {id : CmdId} {e e' : SaEngine} (h : saEnqueue f id e = .ok e') :
    ∃ q, queuePush f id e.q = .ok q ∧ e' = { e with q := q } := by
  obtain ⟨q, hq, hr⟩ := bind_eq_ok.1 h
  exact ⟨q, hq, by simpa using hr.symm⟩

theorem saEnqueue_of_push {f : List Byte} {id : CmdId} {e : SaEngine} {q : SaQueue} (h : queuePush f id e.q = .ok q) :
    saEnqueue f id e = .ok { e with q := q } := by
  simp [saEnqueue, h]

/-- The queue after `saEnqueue`, when its four slots exist. -/
theorem saEnqueue_eq {f : List Byte} {id : CmdId} {e : SaEngine} (hl : e.q.slots.length = 4) :
    saEnqueue f id e = .ok { e with q := if e.q.count = 4 then e.q else { e.q with
      slots := e.q.slots.set ((e.q.head + e.q.count) % 4) ⟨id, f⟩, count := e.q.count + 1 } } := by
  by_cases h : e.q.count = 4
  · rw [saEnqueue_of_push (queuePush_full f id h)]; simp [h]
  · rw [saEnqueue_of_push (queuePush_room f id hl h)]; simp [h]

/-! Completion and replies. -/

theorem saComplete_ok {r : Byte} {e e' : SaEngine} (h : saComplete r e = .ok e') :
    ((∀ o, e.outstanding = some o → r ∉ replyClass o) ∧ e' = e) ∨
    ∃ o, e.outstanding = some o ∧ r ∈ replyClass o ∧ 0 < e.q.count ∧
      e' = { e with q := { e.q with head := (e.q.head + 1) % 4, count := e.q.count - 1 }, outstanding := none } := by
  unfold saComplete at h
  split at h
  · exact .inl ⟨by simp_all, by simpa using h.symm⟩
  · rename_i o ho
    split at h
    · rename_i hr
      obtain ⟨q, hq, he⟩ := bind_eq_ok.1 h
      obtain ⟨hc, rfl⟩ := queuePop_ok hq
      exact .inr ⟨o, ho, hr, hc, by simpa using he.symm⟩
    · exact .inl ⟨by simp_all, by simpa using h.symm⟩

theorem saComplete_unanswered {r : Byte} {e : SaEngine} (h : ∀ o, e.outstanding = some o → r ∉ replyClass o) :
    saComplete r e = .ok e := by
  unfold saComplete
  split
  · rfl
  · rename_i o ho; simp [h o ho]

theorem saComplete_answered {r : Byte} {e : SaEngine} {o : CmdId} (ho : e.outstanding = some o)
    (hr : r ∈ replyClass o) (hc : 0 < e.q.count) :
    saComplete r e = .ok { e with
      q := { e.q with head := (e.q.head + 1) % 4, count := e.q.count - 1 }, outstanding := none } := by
  simp [saComplete, ho, hr, queuePop_pos hc]

/-- A handler writes observed fields only, and never makes the version unknown (42_sa_frames.md R115, R116). -/
theorem saRespond_eq (c : Config) (r : Byte) (p : List Byte) (e : SaEngine) :
    ∃ v ch pw m f pf, saRespond c r p e =
      { e with version := v, channel := ch, power := pw, mode := m, freq := f, pitFreq := pf } ∧
      (v = e.version ∨ v ≠ .unknown) := by
  have hv : replyVersion r ≠ .unknown := by unfold replyVersion; split <;> (try split) <;> simp
  unfold saRespond
  split
  · exact ⟨_, _, _, _, _, _, rfl, .inr hv⟩
  split
  · unfold saRespSetFreq
    split
    · dsimp only
      split
      · exact ⟨_, _, _, _, _, _, rfl, .inl rfl⟩
      · exact ⟨_, _, _, _, _, _, rfl, .inl rfl⟩
    · exact ⟨_, _, _, _, _, _, rfl, .inl rfl⟩
  split
  · exact ⟨_, _, _, _, _, _, rfl, .inl rfl⟩
  · exact ⟨_, _, _, _, _, _, rfl, .inl rfl⟩

/-! The receiver. -/

theorem saRxPayload_ok {d : Byte} {e e' : SaEngine} (h : saRxPayload d e = .ok e') :
    e.rxCount.toNat < e.rxData.length ∧
    e' = { e with rxData := e.rxData.set e.rxCount.toNat d, rxCount := e.rxCount + 1
                  rx := if e.rxCount + 1 = e.rxLen then .waitCrc else e.rx } := by
  obtain ⟨b, hb, hr⟩ := bind_eq_ok.1 h
  obtain ⟨hi, rfl⟩ := memWrite_eq_ok.1 hb
  exact ⟨hi, by simpa using hr.symm⟩

theorem saRxCrc_ok {c : Config} {d : Byte} {e e' : SaEngine} (h : saRxCrc c d e = .ok e') :
    e.rxLen.toNat ≤ e.rxData.length ∧
    ((crc8 ([0xAA, 0x55, e.rxCmd, e.rxLen] ++ e.rxData.take e.rxLen.toNat) = d ∧
        saDispatch c e.rxCmd (e.rxData.take e.rxLen.toNat) { e with rx := .waitPreamble1 } = .ok e') ∨
      (crc8 ([0xAA, 0x55, e.rxCmd, e.rxLen] ++ e.rxData.take e.rxLen.toNat) ≠ d ∧
        e' = { e with rx := .waitPreamble1, crcErr := count c e.crcErr })) := by
  obtain ⟨b, hb, hr⟩ := bind_eq_ok.1 h
  obtain ⟨hi, rfl⟩ := memReadRange_eq_ok.1 hb
  refine ⟨hi, ?_⟩
  split at hr
  · exact .inl ⟨by assumption, hr⟩
  · exact .inr ⟨by assumption, by simpa using hr.symm⟩

/-- An RX list is received byte by byte: what one byte keeps, the list keeps. -/
theorem saRxList_keeps {c : Config} {P : SaEngine → Prop}
    (hstep : ∀ d e e', P e → saRxByte c d e = .ok e' → P e') :
    ∀ {ds : List Byte} {e e' : SaEngine}, P e → saRxList c ds e = .ok e' → P e'
  | [], e, e', hp, h => by simp only [saRxList, Except.ok.injEq] at h; exact h ▸ hp
  | d :: ds, e, e', hp, h => by
    obtain ⟨e1, h1, h2⟩ := bind_eq_ok.1 h
    exact saRxList_keeps hstep (hstep d e e1 hp h1) h2

/-! The initialization step and the scheduler. -/

/-- What `saInitStep` can do (43_sa_engine.md R126). -/
theorem saInitStep_ok {c : Config} {e e' : SaEngine} (h : saInitStep c e = .ok e') :
    (e.phase = .start ∧ ∃ q, queuePush saGetSettingsFrame saIdGetSettings e.q = .ok q ∧
      e' = { e with q := q, phase := .waitSettings }) ∨
    (e.phase = .waitSettings ∧ e.version = .unknown ∧ e' = e) ∨
    (e.phase = .waitSettings ∧ versionAtLeast2 e.version = true ∧
      ∃ q, queuePush (saSetFrequencyFrame c.saPitFlag) saIdSetFrequency e.q = .ok q ∧
        e' = { e with q := q, phase := .waitPitFrequency }) ∨
    (e.phase = .waitSettings ∧ e.version = .v1 ∧ e' = { e with phase := .done }) ∨
    (e.phase = .waitPitFrequency ∧ e.pitFreq.isSome = true ∧ e' = { e with phase := .done }) ∨
    (e.phase = .waitPitFrequency ∧ e.pitFreq = none ∧ e' = e) ∨
    (e.phase = .done ∧ e' = e) := by
  unfold saInitStep at h
  split at h
  · rename_i hp
    obtain ⟨e1, h1, h2⟩ := bind_eq_ok.1 h
    obtain ⟨q, hq, rfl⟩ := saEnqueue_ok h1
    exact .inl ⟨hp, q, hq, by simpa using h2.symm⟩
  · rename_i hp
    split at h
    · exact .inr (.inl ⟨hp, by assumption, by simpa using h.symm⟩)
    split at h
    · obtain ⟨e1, h1, h2⟩ := bind_eq_ok.1 h
      obtain ⟨q, hq, rfl⟩ := saEnqueue_ok h1
      exact .inr (.inr (.inl ⟨hp, by assumption, q, hq, by simpa using h2.symm⟩))
    · refine .inr (.inr (.inr (.inl ⟨hp, ?_, by simpa using h.symm⟩)))
      cases hv : e.version <;> simp_all [versionAtLeast2]
  · rename_i hp
    simp only [Except.ok.injEq] at h
    split at h
    · exact .inr (.inr (.inr (.inr (.inl ⟨hp, by assumption, h.symm⟩))))
    · exact .inr (.inr (.inr (.inr (.inr (.inl ⟨hp, by simp_all, h.symm⟩)))))
  · rename_i hp
    exact .inr (.inr (.inr (.inr (.inr (.inr ⟨hp, by simpa using h.symm⟩)))))

/-- What `saOutbound` can do (43_sa_engine.md R124). -/
theorem saOutbound_ok {c : Config} {now : Nat} {e e' : SaEngine} {f : Option (List Byte)}
    (h : saOutbound c now e = .ok (e', f)) :
    (e.outstanding ≠ none ∧ due c now e.lastTx c.saCmdTimeoutMs = true ∧
      ∃ x, e.q.slots[e.q.head]? = some x ∧ e' = { e with lastTx := some now } ∧ f = some x.bytes) ∨
    (e.outstanding = none ∧ 0 < e.q.count ∧
      ∃ x, e.q.slots[e.q.head]? = some x ∧ e' = { e with outstanding := some x.id, lastTx := some now } ∧
        f = some x.bytes) ∨
    (e.outstanding = none ∧ e.q.count = 0 ∧ e.phase = .done ∧ due c now e.lastTx c.saPollIntervalMs = true ∧
      ∃ q, queuePush saGetSettingsFrame saIdGetSettings e.q = .ok q ∧ e' = { e with q := q } ∧ f = none) ∨
    (e' = e ∧ f = none) := by
  unfold saOutbound at h
  split at h
  · rename_i ho
    split at h
    · obtain ⟨x, hx, hr⟩ := bind_eq_ok.1 h
      simp only [pure_eq_ok, Except.ok.injEq, Prod.mk.injEq] at hr
      exact .inl ⟨ho, by assumption, x, queueFront_eq_ok.1 hx, hr.1.symm, hr.2.symm⟩
    · simp only [Except.ok.injEq, Prod.mk.injEq] at h
      exact .inr (.inr (.inr ⟨h.1.symm, h.2.symm⟩))
  · rename_i ho
    have ho : e.outstanding = none := by simpa using ho
    split at h
    · obtain ⟨x, hx, hr⟩ := bind_eq_ok.1 h
      simp only [pure_eq_ok, Except.ok.injEq, Prod.mk.injEq] at hr
      exact .inr (.inl ⟨ho, by assumption, x, queueFront_eq_ok.1 hx, hr.1.symm, hr.2.symm⟩)
    · rename_i hc
      split at h
      · rename_i hd
        obtain ⟨e1, h1, hr⟩ := bind_eq_ok.1 h
        obtain ⟨q, hq, rfl⟩ := saEnqueue_ok h1
        simp only [pure_eq_ok, Except.ok.injEq, Prod.mk.injEq] at hr
        exact .inr (.inr (.inl ⟨ho, by omega, hd.1, hd.2, q, hq, hr.1.symm, hr.2.symm⟩))
      · simp only [Except.ok.injEq, Prod.mk.injEq] at h
        exact .inr (.inr (.inr ⟨h.1.symm, h.2.symm⟩))

/-- A SmartAudio POLL receives, then initializes, then schedules (20_memory.md R65). -/
theorem saPoll_eq_ok {c : Config} {now : Nat} {rx : List Byte} {e : SaEngine} {r : SaEngine × Option (List Byte)} :
    saPoll c now rx e = .ok r ↔
      ∃ e1 e2, saRxList c rx e = .ok e1 ∧ saInitStep c e1 = .ok e2 ∧ saOutbound c now e2 = .ok r := by
  simp only [saPoll, bind_eq_ok]
  constructor
  · rintro ⟨e1, h1, e2, h2, h3⟩; exact ⟨e1, e2, h1, h2, h3⟩
  · rintro ⟨e1, e2, h1, h2, h3⟩; exact ⟨e1, h1, e2, h2, h3⟩

/-- An accepted setter enqueues (43_sa_engine.md R128 to R132). -/
theorem saSend_ok {f : List Byte} {id : CmdId} {e : SaEngine} {r : Option SaEngine} (h : saSend f id e = .ok r) :
    ∃ q, queuePush f id e.q = .ok q ∧ r = some { e with q := q } := by
  obtain ⟨e1, h1, hr⟩ := bind_eq_ok.1 h
  obtain ⟨q, hq, rfl⟩ := saEnqueue_ok h1
  exact ⟨q, hq, by simpa using hr.symm⟩

end Sys2Proof.Machine
end

