-- ==== Sys2Proof/Laws/Queue.lean ====
section
/-! SUPPORT. The queue seen as the list of its live entries (10_state.md R32). -/

namespace Sys2Proof.Machine

/-- Picking from `0 .. n-1` with a choice that never misses keeps the positions. -/
theorem filterMap_range_getElem? {α : Type} (f : Nat → Option α) :
    ∀ (n : Nat), (∀ k < n, (f k).isSome) → ∀ k, ((List.range n).filterMap f)[k]? = if k < n then f k else none
  | 0, _, k => by simp
  | n + 1, h, k => by
    obtain ⟨a, ha⟩ := Option.isSome_iff_exists.1 (h n (by omega))
    have ih := filterMap_range_getElem? f n (fun k hk => h k (by omega))
    have hlen : ((List.range n).filterMap f).length = n := by
      apply le_antisymm
      · exact (List.length_filterMap_le _ _).trans (by simp)
      · by_contra hc
        have hm := ih ((List.range n).filterMap f).length
        rw [if_pos (by omega), List.getElem?_eq_none le_rfl] at hm
        have hs := h ((List.range n).filterMap f).length (by omega)
        rw [← hm] at hs
        exact absurd hs (by simp)
    rw [List.range_succ, List.filterMap_append]
    simp only [List.filterMap_cons, ha, List.filterMap_nil]
    rcases Nat.lt_trichotomy k n with hk | rfl | hk
    · rw [List.getElem?_append_left (by omega), ih, if_pos hk, if_pos (by omega)]
    · rw [List.getElem?_append_right (by omega), hlen]; simp [ha]
    · rw [List.getElem?_append_right (by omega), hlen, if_neg (by omega)]
      simp only [List.getElem?_eq_none_iff, List.length_singleton]
      omega

theorem queueEntries_getElem? {q : SaQueue} (hl : q.slots.length = 4) (k : Nat) :
    (queueEntries q)[k]? = if k < q.count then q.slots[(q.head + k) % 4]? else none := by
  unfold queueEntries
  rw [filterMap_range_getElem?]
  · rfl
  · intro k _
    have : slotIndex q k < q.slots.length := by rw [hl]; exact Nat.mod_lt _ (by decide)
    simp [this]

theorem queueEntries_length {q : SaQueue} (hl : q.slots.length = 4) : (queueEntries q).length = q.count := by
  apply le_antisymm
  · by_contra hc
    have h := queueEntries_getElem? hl q.count
    rw [if_neg (by omega)] at h
    simp at h; omega
  · by_contra hc
    have h := queueEntries_getElem? hl (queueEntries q).length
    rw [if_pos (by omega)] at h
    have : (q.head + (queueEntries q).length) % 4 < q.slots.length := by rw [hl]; exact Nat.mod_lt _ (by decide)
    simp [this] at h

/-- The front entry is the slot at `head`. -/
theorem queueEntries_head? {q : SaQueue} (hl : q.slots.length = 4) (hh : q.head < 4) :
    (queueEntries q).head? = if 0 < q.count then q.slots[q.head]? else none := by
  rw [List.head?_eq_getElem?, queueEntries_getElem? hl]
  simp [Nat.mod_eq_of_lt hh]

end Sys2Proof.Machine
end

