-- ==== Sys2Proof/Laws/Tramp.lean ====
section
/-! SUPPORT. What the TRAMP rules can do, said once: the replies, the receiver, the step and the setters. -/

namespace Sys2Proof.Machine

/-! Replies. -/

/-- A dispatched frame is handled by one of the three replies, or by none (44_tramp_frames.md R141). -/
theorem trDispatch_cases (b : List Byte) (e : TrEngine) :
    (∃ mn mx mp, trDispatch b e = trRespReset mn mx mp e) ∨
    (∃ f p c i a, trDispatch b e = trRespStatus f p c i a e) ∨
    (∃ t, trDispatch b e = trRespTemp t e) ∨ trDispatch b e = e := by
  unfold trDispatch
  split
  · exact .inl ⟨_, _, _, rfl⟩
  · exact .inr (.inl ⟨_, _, _, _, _, rfl⟩)
  · exact .inr (.inr (.inl ⟨_, rfl⟩))
  · exact .inr (.inr (.inr rfl))

/-! The receiver. -/

theorem trRxHeader_ok {d : Byte} {e e' : TrEngine} (h : trRxHeader d e = .ok e') :
    (d = 0x0F ∧ 0 < e.rxBuf.length ∧
      e' = { e with rxBuf := e.rxBuf.set 0 d, rxCount := 1, rx := .waitResponseCode }) ∨ (d ≠ 0x0F ∧ e' = e) := by
  unfold trRxHeader at h
  split at h
  · obtain ⟨b, hb, hr⟩ := bind_eq_ok.1 h
    obtain ⟨hi, rfl⟩ := memWrite_eq_ok.1 hb
    exact .inl ⟨by assumption, hi, by simpa using hr.symm⟩
  · exact .inr ⟨by assumption, by simpa using h.symm⟩

theorem trRxCode_ok {d : Byte} {e e' : TrEngine} (h : trRxCode d e = .ok e') :
    (d ∈ trReplyCodes ∧ 1 < e.rxBuf.length ∧
      e' = { e with rxBuf := e.rxBuf.set 1 d, rxCount := 2, rx := .accumulateData }) ∨
    (d ∉ trReplyCodes ∧ e' = { e with rxCount := 0, rx := .waitHeader }) := by
  unfold trRxCode at h
  split at h
  · obtain ⟨b, hb, hr⟩ := bind_eq_ok.1 h
    obtain ⟨hi, rfl⟩ := memWrite_eq_ok.1 hb
    exact .inl ⟨by assumption, hi, by simpa using hr.symm⟩
  · exact .inr ⟨by assumption, by simpa using h.symm⟩

theorem trValidate_ok {c : Config} {e e' : TrEngine} (h : trValidate c e = .ok e') :
    (e' = trDispatch e.rxBuf { e with rx := .waitHeader, rxCount := 0 } ∧
      e.rxBuf[14]? = some (trampChecksum e.rxBuf) ∧ e.rxBuf[15]? = some 0x00) ∨
    (e' = { e with rx := .waitHeader, rxCount := 0, badFrame := count c e.badFrame } ∧
      ¬ (e.rxBuf[14]? = some (trampChecksum e.rxBuf) ∧ e.rxBuf[15]? = some 0x00)) := by
  obtain ⟨chk, hc, h⟩ := bind_eq_ok.1 h
  obtain ⟨term, ht, h⟩ := bind_eq_ok.1 h
  rw [memRead_eq_ok] at hc ht
  split at h
  · rename_i hv
    exact .inl ⟨by simpa using h.symm, by simp_all, by simp_all⟩
  · rename_i hv
    refine .inr ⟨by simpa using h.symm, ?_⟩
    simp_all

theorem trRxData_ok {c : Config} {d : Byte} {e e' : TrEngine} (h : trRxData c d e = .ok e') :
    e.rxCount < e.rxBuf.length ∧
    ((e.rxCount + 1 ≠ trFrameLen ∧ e' = { e with rxBuf := e.rxBuf.set e.rxCount d, rxCount := e.rxCount + 1 }) ∨
     (e.rxCount + 1 = trFrameLen ∧
        trValidate c { e with rxBuf := e.rxBuf.set e.rxCount d, rxCount := e.rxCount + 1 } = .ok e')) := by
  obtain ⟨b, hb, h⟩ := bind_eq_ok.1 h
  obtain ⟨hi, rfl⟩ := memWrite_eq_ok.1 hb
  refine ⟨hi, ?_⟩
  dsimp only at h
  split at h
  · exact .inr ⟨by assumption, h⟩
  · exact .inl ⟨by assumption, by simpa using h.symm⟩

/-- An RX list is received byte by byte: what one byte keeps, the list keeps. -/
theorem trRxList_keeps {c : Config} {P : TrEngine → Prop} (hstep : ∀ d e e', P e → trRxByte c d e = .ok e' → P e') :
    ∀ {ds : List Byte} {e e' : TrEngine}, P e → trRxList c ds e = .ok e' → P e'
  | [], e, e', hp, h => by simp only [trRxList, Except.ok.injEq] at h; exact h ▸ hp
  | d :: ds, e, e', hp, h => by
    obtain ⟨e1, h1, h2⟩ := bind_eq_ok.1 h
    exact trRxList_keeps hstep (hstep d e e1 hp h1) h2

/-- A relation to the engine before the RX list that each byte keeps holds after the list. -/
theorem trRxByte_relates {c : Config} {R : TrEngine → TrEngine → Prop}
    (hrx : ∀ (e : TrEngine) (rx : TrRx) (buf : List Byte) (n : Nat) (bad : Nat),
      R e { e with rx := rx, rxBuf := buf, rxCount := n, badFrame := bad })
    (hreset : ∀ e mn mx mp, R e (trRespReset mn mx mp e)) (hstatus : ∀ e f p c i a, R e (trRespStatus f p c i a e))
    (htemp : ∀ e t, R e (trRespTemp t e)) (htrans : ∀ a b c, R a b → R b c → R a c)
    {d : Byte} {e e' : TrEngine} (h : trRxByte c d e = .ok e') : R e e' := by
  unfold trRxByte at h
  split at h
  · rcases trRxHeader_ok h with ⟨_, _, rfl⟩ | ⟨_, rfl⟩
    · exact hrx e _ _ _ e.badFrame
    · exact hrx e' _ _ _ _
  · rcases trRxCode_ok h with ⟨_, _, rfl⟩ | ⟨_, rfl⟩
    · exact hrx e _ _ _ e.badFrame
    · exact hrx e _ e.rxBuf _ e.badFrame
  · obtain ⟨_, ⟨_, rfl⟩ | ⟨_, hv⟩⟩ := trRxData_ok h
    · exact hrx e e.rx _ _ e.badFrame
    · rcases trValidate_ok hv with ⟨rfl, _⟩ | ⟨rfl, _⟩
      · refine htrans _ _ _ (hrx e .waitHeader (e.rxBuf.set e.rxCount d) 0 e.badFrame) ?_
        rcases trDispatch_cases (e.rxBuf.set e.rxCount d)
          { e with rx := .waitHeader, rxBuf := e.rxBuf.set e.rxCount d, rxCount := 0 } with
          ⟨_, _, _, hd⟩ | ⟨_, _, _, _, _, hd⟩ | ⟨_, hd⟩ | hd
        · rw [hd]; exact hreset _ _ _ _
        · rw [hd]; exact hstatus _ _ _ _ _ _
        · rw [hd]; exact htemp _ _
        · rw [hd]; exact hrx { e with rx := .waitHeader, rxBuf := e.rxBuf.set e.rxCount d, rxCount := 0 } _ _ _ _
      · exact hrx e _ _ _ _

/-! The step. -/

/-- What `trMonitorPoll` can do (45_tramp_engine.md R146). -/
theorem trMonitorPoll_cases (c : Config) (now : Nat) (e : TrEngine) :
    (due c now e.lastStatus trStatusPeriodMs = true ∧
      trMonitorPoll c now e = ({ e with state := .monTemp, lastStatus := some now, lastReq := some now },
        some trStatusQueryFrame)) ∨
    (due c now e.lastStatus trStatusPeriodMs = false ∧ trMonitorPoll c now e = (e, none)) := by
  unfold trMonitorPoll
  cases h : due c now e.lastStatus trStatusPeriodMs
  · exact .inr ⟨rfl, rfl⟩
  · exact .inl ⟨rfl, rfl⟩

/-- What `trMonitor` can do (R146). -/
theorem trMonitor_cases (c : Config) (now : Nat) (e : TrEngine) :
    (∃ f, 0 < e.retry ∧ trCorrection c e = some f ∧
      trMonitor c now e = ({ e with retry := e.retry - 1, state := .config, lastReq := some now }, some f)) ∨
    (0 < e.retry ∧ trCorrection c e = none ∧ trMonitor c now e = trMonitorPoll c now { e with retry := trMaxRetry }) ∨
    (e.retry = 0 ∧ trMonitor c now e = trMonitorPoll c now e) := by
  unfold trMonitor
  by_cases h : 0 < e.retry
  · cases hf : trCorrection c e with
    | none => exact .inr (.inl ⟨h, rfl, by simp [h]⟩)
    | some f => exact .inl ⟨f, h, rfl, by simp [h, trSend]⟩
  · exact .inr (.inr ⟨by omega, by simp [h]⟩)

/-- What `trStep` can do (R146): nothing, or one of the states' frames once its period has passed. -/
theorem trStep_cases (c : Config) (now : Nat) (e : TrEngine) :
    (e.state = .offline ∧ due c now e.lastReq c.trInitPeriodMs = true ∧
      trStep c now e = ({ e with lastReq := some now }, some trResetQueryFrame)) ∨
    (e.state = .init ∧ due c now e.lastReq c.trInitPeriodMs = true ∧
      trStep c now e = ({ e with lastStatus := some now, lastReq := some now }, some trStatusQueryFrame)) ∨
    (e.state = .monFreqPwrPit ∧ due c now e.lastReq trMinPeriodMs = true ∧ trStep c now e = trMonitor c now e) ∨
    (e.state = .monTemp ∧ due c now e.lastReq trMinPeriodMs = true ∧
      trStep c now e = ({ e with state := .monFreqPwrPit, lastReq := some now }, some trTempQueryFrame)) ∨
    (e.state = .config ∧ due c now e.lastReq trMinPeriodMs = true ∧
      trStep c now e = ({ e with state := .monFreqPwrPit, lastStatus := some now, lastReq := some now },
        some trStatusQueryFrame)) ∨
    trStep c now e = (e, none) := by
  unfold trStep
  split <;> rename_i hs <;> split <;> rename_i hd
  · exact .inl ⟨hs, hd, rfl⟩
  · exact .inr (.inr (.inr (.inr (.inr rfl))))
  · exact .inr (.inl ⟨hs, hd, rfl⟩)
  · exact .inr (.inr (.inr (.inr (.inr rfl))))
  · exact .inr (.inr (.inl ⟨hs, hd, rfl⟩))
  · exact .inr (.inr (.inr (.inr (.inr rfl))))
  · exact .inr (.inr (.inr (.inl ⟨hs, hd, rfl⟩)))
  · exact .inr (.inr (.inr (.inr (.inr rfl))))
  · exact .inr (.inr (.inr (.inr (.inl ⟨hs, hd, rfl⟩))))
  · exact .inr (.inr (.inr (.inr (.inr rfl))))

/-- A TRAMP POLL receives, then steps (20_memory.md R65). -/
theorem trPoll_eq_ok {c : Config} {now : Nat} {rx : List Byte} {e : TrEngine} {r : TrEngine × Option (List Byte)} :
    trPoll c now rx e = .ok r ↔ ∃ e1, trRxList c rx e = .ok e1 ∧ r = trStep c now e1 := by
  simp only [trPoll, bind_eq_ok, pure_eq_ok, Except.ok.injEq]
  constructor
  · rintro ⟨e1, h1, h2⟩; exact ⟨e1, h1, h2.symm⟩
  · rintro ⟨e1, h1, h2⟩; exact ⟨e1, h1, h2.symm⟩

/-- A frequency or power write sends unless race-locked (R150, R151). -/
theorem trWrite_cases (c : Config) (now : Nat) (f : List Byte) (e : TrEngine) :
    (raceLocked c e = true ∧ trWrite c now f e = (e, none)) ∨
    (raceLocked c e = false ∧ trWrite c now f e = ({ e with lastReq := some now }, some f)) := by
  unfold trWrite
  cases h : raceLocked c e
  · exact .inr ⟨rfl, rfl⟩
  · exact .inl ⟨rfl, rfl⟩

end Sys2Proof.Machine
end

