-- ==== Sys2Proof/Tests/Slice0.lean ====
section
/-! SUPPORT. The writer's own tests: the well-formedness checks refuse ill-formed terms; one word for every constructor,
written out from the encoding tables of 30_encoding.md, decodes to it; one-step results taken from 95_test_vectors.md;
and for every statement with hypotheses a state and operands that meet them. -/

namespace Sys2Proof.Tests
open Sys2Proof.Machine

set_option Elab.async false

/-! Helpers. -/

/-- The state after an instruction, if it gives one. -/
def after (i : Instr) (s : State) : Option State :=
  match exec i s with
  | .next t => some t
  | _ => none

/-- The state after one step, if it gives one. -/
def afterStep (s : State) : Option State :=
  match step s with
  | .next t => some t
  | _ => none

/-- The result of an instruction as `(ok, data)`. -/
def resultOf (i : Instr) (s : State) : Option (Bool × Nat) :=
  ((after i s).bind (·.result)).map fun r => (r.ok, r.data.toNat)

/-- The TX events an instruction adds. -/
def sentBy (i : Instr) (s : State) : List TxEvent := (((after i s).map (·.tx)).getD []).drop s.tx.length

/-- The SmartAudio engine after an instruction. -/
def saAfter (i : Instr) (s : State) : Option SaEngine :=
  (after i s).bind fun t =>
    match t.engine with
    | .sa e => some e
    | _ => none

/-- The TRAMP engine after an instruction. -/
def trAfter (i : Instr) (s : State) : Option TrEngine :=
  (after i s).bind fun t =>
    match t.engine with
    | .tramp e => some e
    | _ => none

/-- A frame as it leaves. -/
def wire (f : List Byte) : List TxEvent := [.group (0x00 :: f), .flush]

def sa0 : SaEngine := freshSa standardConfig
def saWith (e : SaEngine) : State := { State.reset with engine := .sa e }
def tr0 : TrEngine := freshTr
def trWith (e : TrEngine) : State := { State.reset with proto := .tramp, engine := .tramp e }

/-- An initialized SmartAudio engine with an empty queue. -/
def saDone : SaEngine := { sa0 with phase := .done, version := .v2, lastTx := some 60 }

/-- One queued entry with this id and payload. -/
def oneEntry (id : CmdId) (p : List Byte) : SaQueue := ⟨[⟨id, saFrame id p⟩, ⟨0, []⟩, ⟨0, []⟩, ⟨0, []⟩], 0, 1⟩

/-- An initialized SmartAudio engine with this command outstanding, sent at time 0. -/
def saWaiting (id : CmdId) (p : List Byte) : SaEngine :=
  { saDone with q := oneEntry id p, outstanding := some id, lastTx := some 0 }

/-- A full queue. -/
def saFull : SaEngine :=
  { saDone with q := ⟨List.replicate 4 ⟨0x01, saGetSettingsFrame⟩, 3, 4⟩ }

/-- A TRAMP engine that monitors, with a frequency to correct, 200 ms after its last frame at time 1000. -/
def trMon : TrEngine :=
  { tr0 with state := .monFreqPwrPit, ready := true, desFreq := 5740, obsFreq := 5658, lastReq := some 1000
             lastStatus := some 700 }

/-- A state at time `t`. -/
def State.at (t : Nat) (s : State) : State := { s with now := t }

/-! Well-formedness: each check refuses an ill-formed term. -/

theorem test_wf_payload_17 :
    (Instr.saReplySettingsV1 (List.replicate 17 0)).wellFormed standardConfig = false := by decide
theorem test_wf_payload_16 : (Instr.saReplySetMode (List.replicate 16 0)).wellFormed standardConfig = true := by decide
theorem test_setChannel_takes_every_byte :
    decode standardConfig (.saRequest [0xAA, 0x55, 0x07, 0x01, 0x28, 0x35]) =
      .ok (.saSetChannel 40) := by decide +kernel
theorem test_wf_other_is_not_listed : (Instr.saReplyOther 0x09 []).wellFormed standardConfig = false := by decide

/-! Decoding: one word for every constructor, from the tables of R71, R76, R78, R82 and R83. -/

theorem test_decode_init : decode standardConfig (.hostOp 0x01 0 0x01 []) = .ok (.init true) := by decide
theorem test_decode_poll : decode standardConfig (.hostOp 0x02 0 0 [0xAA]) = .ok (.poll [0xAA]) := by decide
theorem test_decode_isReady : decode standardConfig (.hostOp 0x03 0 0 []) = .ok .isReady := by decide
theorem test_decode_setFreq : decode standardConfig (.hostOp 0x04 0x1664 0 []) = .ok (.setFreq 5732) := by decide
theorem test_decode_setPower : decode standardConfig (.hostOp 0x05 0x00C8 0 []) = .ok (.setPower 200) := by decide
theorem test_decode_setPit : decode standardConfig (.hostOp 0x06 0 0xFE []) = .ok (.setPit false) := by decide
theorem test_decode_setBandCh : decode standardConfig (.hostOp 0x07 0xFF05 0x03 []) = .ok (.setBandCh 5 3) := by decide
theorem test_decode_protocolInUse : decode standardConfig (.hostOp 0x08 7 7 [7]) = .ok .protocolInUse := by decide
theorem test_decode_switchProtocol :
    decode standardConfig (.hostOp 0x09 0 0x01 []) = .ok (.switchProtocol .tramp) := by decide
theorem test_decode_bandChToFreq :
    decode standardConfig (.hostOp 0x0A 0x0105 0x03 []) = .ok (.bandChToFreq 5 3) := by decide
theorem test_decode_crc8 : decode standardConfig (.hostOp 0x0B 0 0 [1, 2]) = .ok (.crc8 [1, 2]) := by decide
theorem test_decode_trampChecksum : decode standardConfig (.hostOp 0x0C 0 0 [1]) = .ok (.trampChecksum [1]) := by decide
theorem test_decode_regRead : decode standardConfig (.hostOp 0x0D 0 0x51 []) = .ok (.regRead 0x51) := by decide
theorem test_decode_saValidate : decode standardConfig (.hostOp 0x0E 0 0 [3]) = .ok (.saValidate [3]) := by decide
theorem test_decode_trampValidate : decode standardConfig (.hostOp 0x0F 0 0 [4]) = .ok (.trampValidate [4]) := by decide
theorem test_decode_illegal_op :
    decode standardConfig (.hostOp 0x10 0x1234 0x56 [0xAA]) = .error (.illegalOp 0x10) := by decide

theorem test_decode_saGetSettings :
    decode standardConfig (.saRequest [0xAA, 0x55, 0x03, 0x00, 0x9F]) = .ok .saGetSettings := by decide +kernel
theorem test_decode_saSetPower :
    decode standardConfig (.saRequest [0xAA, 0x55, 0x05, 0x01, 0x19, 0xC5]) = .ok (.saSetPower 25) := by decide +kernel
theorem test_decode_saSetChannel :
    decode standardConfig (.saRequest [0xAA, 0x55, 0x07, 0x01, 0x22, 0x63]) = .ok (.saSetChannel 34) := by decide +kernel
theorem test_decode_saSetFrequency :
    decode standardConfig (.saRequest [0xAA, 0x55, 0x09, 0x02, 0x16, 0x6C, 0x18]) = .ok (.saSetFrequency 5740) := by
  decide +kernel
theorem test_decode_saSetMode :
    decode standardConfig (.saRequest [0xAA, 0x55, 0x0B, 0x01, 0x04, 0xD3]) = .ok (.saSetMode 4) := by decide +kernel
theorem test_decode_saReplySettingsV1 :
    decode standardConfig (.saReply [0xAA, 0x55, 0x01, 0x02, 0x22, 0x01, 0x5D]) =
      .ok (.saReplySettingsV1 [0x22, 0x01]) := by decide +kernel
theorem test_decode_saReplySettingsV2 :
    decode standardConfig (.saReply [0xAA, 0x55, 0x09, 0x05, 0x22, 0x02, 0x00, 0x16, 0x64, 0xD5]) =
      .ok (.saReplySettingsV2 [0x22, 0x02, 0x00, 0x16, 0x64]) := by decide +kernel
theorem test_decode_saReplySettingsV21 :
    decode standardConfig (.saReply [0xAA, 0x55, 0x11, 0x05, 0x22, 0x02, 0x00, 0x16, 0x64, 0x37]) =
      .ok (.saReplySettingsV21 [0x22, 0x02, 0x00, 0x16, 0x64]) := by decide +kernel
theorem test_decode_saReplySetPower :
    decode standardConfig (.saReply [0xAA, 0x55, 0x02, 0x01, 0x01, 0x9D]) = .ok (.saReplySetPower [0x01]) := by
  decide +kernel
theorem test_decode_saReplySetChannel :
    decode standardConfig (.saReply [0xAA, 0x55, 0x03, 0x00, 0x9F]) = .ok (.saReplySetChannel []) := by decide +kernel
theorem test_decode_saReplySetFrequency :
    decode standardConfig (.saReply [0xAA, 0x55, 0x04, 0x02, 0x96, 0x1C, 0x0B]) =
      .ok (.saReplySetFrequency [0x96, 0x1C]) := by decide +kernel
theorem test_decode_saReplySetMode :
    decode standardConfig (.saReply [0xAA, 0x55, 0x05, 0x01, 0x01, 0xBE]) = .ok (.saReplySetMode [0x01]) := by
  decide +kernel
theorem test_decode_saReplyOther :
    decode standardConfig (.saReply [0xAA, 0x55, 0x7F, 0x00, 0x51]) = .ok (.saReplyOther 0x7F []) := by decide +kernel
theorem test_decode_sa_bad_crc :
    decode standardConfig (.saReply [0xAA, 0x55, 0x01, 0x02, 0x22, 0x01, 0x5C]) = .error .badCrc := by decide +kernel

theorem test_decode_trResetQuery :
    decode standardConfig (.trRequest [0x0F, 0x72, 0, 0, 0, 0, 0, 0, 0, 0, 0, 0, 0, 0, 0x72, 0]) = .ok .trResetQuery := by
  decide +kernel
theorem test_decode_trStatusQuery :
    decode standardConfig (.trRequest [0x0F, 0x76, 0, 0, 0, 0, 0, 0, 0, 0, 0, 0, 0, 0, 0x76, 0]) = .ok .trStatusQuery := by
  decide +kernel
theorem test_decode_trTempQuery :
    decode standardConfig (.trRequest [0x0F, 0x73, 0, 0, 0, 0, 0, 0, 0, 0, 0, 0, 0, 0, 0x73, 0]) = .ok .trTempQuery := by
  decide +kernel
theorem test_decode_trSetFrequency :
    decode standardConfig (.trRequest [0x0F, 0x46, 0x6C, 0x16, 0, 0, 0, 0, 0, 0, 0, 0, 0, 0, 0xC8, 0]) =
      .ok (.trSetFrequency 5740) := by decide +kernel
theorem test_decode_trSetPower :
    decode standardConfig (.trRequest [0x0F, 0x50, 0x58, 0x02, 0, 0, 0, 0, 0, 0, 0, 0, 0, 0, 0xAA, 0]) =
      .ok (.trSetPower 600) := by decide +kernel
theorem test_decode_trSetActive :
    decode standardConfig (.trRequest [0x0F, 0x49, 0x01, 0x00, 0, 0, 0, 0, 0, 0, 0, 0, 0, 0, 0x4A, 0]) =
      .ok (.trSetActive false) := by decide +kernel
theorem test_decode_trReplyReset :
    decode standardConfig (.trReply [0x0F, 0x72, 0xE0, 0x15, 0x70, 0x17, 0x58, 0x02, 0, 0, 0, 0, 0, 0, 0x48, 0]) =
      .ok (.trReplyReset 5600 6000 600) := by decide +kernel
theorem test_decode_trReplyStatus :
    decode standardConfig (.trReply [0x0F, 0x76, 0x1A, 0x16, 0x19, 0, 0, 0x01, 0x19, 0, 0, 0, 0, 0, 0xD9, 0]) =
      .ok (.trReplyStatus 5658 25 0 true 25) := by decide +kernel
theorem test_decode_trReplyTemp :
    decode standardConfig (.trReply [0x0F, 0x73, 0, 0, 0, 0, 0xFB, 0xFF, 0, 0, 0, 0, 0, 0, 0x6D, 0]) =
      .ok (.trReplyTemp 0xFFFB) := by decide +kernel

/-! The table's words. -/

theorem test_table_word_of_each_op :
    ((List.range 16).filterMap fun op => decodeTableWord 8 op) =
      [.saReplyOther 0 [], .init false, .poll [], .isReady, .setFreq 0, .setPower 0, .setPit false, .setBandCh 0 0,
       .protocolInUse, .switchProtocol .sa, .bandChToFreq 0 0, .crc8 [], .trampChecksum [], .regRead 0, .saValidate [],
       .trampValidate []] := by decide +kernel
theorem test_table_word_of_frame_bytes :
    [0x11, 0x72, 0x76, 0x73, 0x46, 0x50, 0x49].map (decodeTableWord 8) =
      [some (.saReplySettingsV21 []), some .trResetQuery, some .trStatusQuery, some .trTempQuery,
       some (.trSetFrequency 0), some (.trSetPower 0), some (.trSetActive true)] := by decide +kernel
theorem test_fetch_word_runs_first :
    (afterStep (State.reset.withFetchWord 8 0x08)).bind (·.result) = some ⟨true, 0⟩ := by decide +kernel

/-! Host operations: results and events of 95_test_vectors.md §2.13, §2.14. -/

theorem test_init_smartaudio : sentBy (.init true) State.reset = [.configure 4800 8 2 .none] := by decide
theorem test_init_tramp :
    sentBy (.init true) { State.reset with proto := .tramp } = [.configure 9600 8 1 .none] := by decide
theorem test_init_absent_keeps_engine : (after (.init false) (saWith saDone)).map (·.engine) = some (.sa saDone) := by
  decide
theorem test_poll_without_engine : resultOf (.poll [0xAA]) State.reset = some (false, 0) := by decide
theorem test_poll_fresh_smartaudio :
    sentBy (.poll []) (saWith sa0) = wire [0xAA, 0x55, 0x03, 0x00, 0x9F] := by decide +kernel
theorem test_isReady_done : resultOf .isReady (saWith saDone) = some (true, 1) := by decide
theorem test_protocolInUse_tramp : resultOf .protocolInUse (trWith tr0) = some (true, 1) := by decide
theorem test_switchProtocol_discards :
    (after (.switchProtocol .sa) (saWith saDone)).map (·.engine) = some .none := by decide
theorem test_setFreq_4999 : resultOf (.setFreq 4999) (saWith sa0) = some (false, 0) := by decide
theorem test_setFreq_5999_enqueues :
    ((saAfter (.setFreq 5999) (saWith sa0)).map fun e => queueEntries e.q) =
      some [⟨0x04, [0xAA, 0x55, 0x09, 0x02, 0x17, 0x6F, 0xB9]⟩] := by decide +kernel
theorem test_setPower_25_before_version :
    ((saAfter (.setPower 25) (saWith sa0)).map fun e => queueEntries e.q) =
      some [⟨0x02, [0xAA, 0x55, 0x05, 0x01, 0x07, 0x3F]⟩] := by decide +kernel
theorem test_setPower_100 : resultOf (.setPower 100) (saWith saDone) = some (false, 0) := by decide
theorem test_setPit_off_v2 :
    ((saAfter (.setPit false) (saWith saDone)).map fun e => queueEntries e.q) =
      some [⟨0x05, [0xAA, 0x55, 0x0B, 0x01, 0x04, 0xD3]⟩] := by decide +kernel
theorem test_setPit_unknown_version : resultOf (.setPit true) (saWith sa0) = some (false, 0) := by decide
theorem test_setBandCh_5_8 :
    ((saAfter (.setBandCh 5 8) (saWith sa0)).map fun e => queueEntries e.q) =
      some [⟨0x03, [0xAA, 0x55, 0x07, 0x01, 0x27, 0x48]⟩] := by decide +kernel
theorem test_setBandCh_tramp : resultOf (.setBandCh 5 3) (trWith tr0) = some (false, 0) := by decide
theorem test_bandChToFreq_5_8 : resultOf (.bandChToFreq 5 8) State.reset = some (true, 5917) := by decide
theorem test_bandChToFreq_1_9 : resultOf (.bandChToFreq 1 9) State.reset = some (true, 0) := by decide
theorem test_crc8_check_string :
    resultOf (.crc8 [0x31, 0x32, 0x33, 0x34, 0x35, 0x36, 0x37, 0x38, 0x39]) State.reset = some (true, 0xBC) := by
  decide +kernel
theorem test_saValidate_flipped :
    resultOf (.saValidate [0xAA, 0x55, 0x02, 0x00, 0x9F]) State.reset = some (true, 0x9400) := by decide +kernel
theorem test_trampChecksum_ff :
    resultOf (.trampChecksum (0x0F :: List.replicate 13 0xFF ++ [0, 0])) State.reset = some (true, 0xF3) := by
  decide +kernel
theorem test_trampValidate_terminator :
    resultOf (.trampValidate (0x0F :: 0x76 :: List.replicate 12 0 ++ [0x76, 0x01])) State.reset =
      some (true, 0x7602) := by decide +kernel
theorem test_regRead_fresh_retry : resultOf (.regRead 0x42) (trWith tr0) = some (true, 20) := by decide
theorem test_regRead_other_engine : resultOf (.regRead 0x40) (saWith sa0) = some (false, 0) := by decide

/-! SmartAudio frames, §2.4 to §2.7. -/

theorem test_saGetSettings_frame :
    (after .saGetSettings (saWith sa0)).bind (·.built) = some [0xAA, 0x55, 0x03, 0x00, 0x9F] := by decide +kernel
theorem test_saSetPower_frame :
    (after (.saSetPower 0x28) (saWith sa0)).bind (·.built) = some [0xAA, 0x55, 0x05, 0x01, 0x28, 0xE6] := by
  decide +kernel
theorem test_saSetChannel_frame :
    (after (.saSetChannel 39) (saWith sa0)).bind (·.built) = some [0xAA, 0x55, 0x07, 0x01, 0x27, 0x48] := by
  decide +kernel
theorem test_saSetFrequency_frame :
    (after (.saSetFrequency 0x8000) (saWith sa0)).bind (·.built) =
      some [0xAA, 0x55, 0x09, 0x02, 0x80, 0x00, 0xD7] := by decide +kernel
theorem test_saSetMode_frame :
    (after (.saSetMode 1) (saWith sa0)).bind (·.built) = some [0xAA, 0x55, 0x0B, 0x01, 0x01, 0xF8] := by decide +kernel
theorem test_saReplySettingsV1_fields :
    ((saAfter (.saReplySettingsV1 [5, 3, 1, 0x16]) (saWith sa0)).map fun e =>
      (e.version, e.channel, e.power, e.mode, e.freq)) = some (.v1, some 5, some 3, some 1, none) := by decide
theorem test_saReplySettingsV2_completes :
    ((saAfter (.saReplySettingsV2 [0x22, 2, 0, 0x16, 0x64]) (saWith (saWaiting 1 []))).map fun e =>
      (e.freq, e.q.count, e.outstanding)) = some (some 5732, 0, none) := by decide
theorem test_saReplySettingsV21_other_outstanding :
    ((saAfter (.saReplySettingsV21 []) (saWith (saWaiting 4 [0x16, 0x64]))).map fun e => (e.version, e.outstanding)) =
      some (.v21, some 4) := by decide
theorem test_saReplySetPower_completes :
    ((saAfter (.saReplySetPower [1]) (saWith (saWaiting 2 [1]))).map (·.outstanding)) = some none := by decide
theorem test_saReplySetChannel_completes :
    ((saAfter (.saReplySetChannel []) (saWith (saWaiting 3 [1]))).map fun e => (e.channel, e.q.head)) =
      some (none, 1) := by decide
theorem test_saReplySetFrequency_pit :
    ((saAfter (.saReplySetFrequency [0x96, 0x1C]) (saWith sa0)).map fun e => (e.pitFreq, e.freq)) =
      some (some 5660, none) := by decide
theorem test_saReplySetFrequency_short :
    ((saAfter (.saReplySetFrequency [0x16]) (saWith (saWaiting 4 [0x16, 0x64]))).map fun e => (e.freq, e.outstanding)) =
      some (none, none) := by decide
theorem test_saReplySetMode_not_its_own :
    ((saAfter (.saReplySetMode [1]) (saWith (saWaiting 4 [0x16, 0x64]))).map (·.outstanding)) = some (some 4) := by
  decide
theorem test_saReplyOther_ignored :
    saAfter (.saReplyOther 0x7F []) (saWith (saWaiting 1 [])) = some (saWaiting 1 []) := by decide +kernel
theorem test_receiver_resync_costs_frame :
    ((saRxList standardConfig [0xAA, 0xAA, 0x55, 0x01, 0x02, 0x22, 0x01, 0x5D] sa0).toOption.map fun e =>
      (e.rx, e.badPreamble)) = some (.waitPreamble1, 7) := by decide +kernel
theorem test_receiver_bad_crc :
    ((saRxList standardConfig [0xAA, 0x55, 0x01, 0x02, 0x22, 0x01, 0x5C] sa0).toOption.map fun e =>
      (e.crcErr, e.channel, e.version)) = some (1, none, .unknown) := by decide +kernel
theorem test_poll_resends_across_wrap :
    sentBy (.poll []) (State.at 0x40 (saWith { saWaiting 1 [] with lastTx := some 0xFFFFFFB0 })) =
      wire [0xAA, 0x55, 0x03, 0x00, 0x9F] := by decide +kernel

/-! TRAMP frames and engine, §2.9 to §2.12. -/

theorem test_trResetQuery_frame :
    (after .trResetQuery (trWith tr0)).bind (·.built) =
      some [0x0F, 0x72, 0, 0, 0, 0, 0, 0, 0, 0, 0, 0, 0, 0, 0x72, 0] := by decide +kernel
theorem test_trStatusQuery_frame :
    (after .trStatusQuery (trWith tr0)).bind (·.built) =
      some [0x0F, 0x76, 0, 0, 0, 0, 0, 0, 0, 0, 0, 0, 0, 0, 0x76, 0] := by decide +kernel
theorem test_trTempQuery_frame :
    (after .trTempQuery (trWith tr0)).bind (·.built) =
      some [0x0F, 0x73, 0, 0, 0, 0, 0, 0, 0, 0, 0, 0, 0, 0, 0x73, 0] := by decide +kernel
theorem test_trSetFrequency_frame :
    (after (.trSetFrequency 5999) (trWith tr0)).bind (·.built) =
      some [0x0F, 0x46, 0x6F, 0x17, 0, 0, 0, 0, 0, 0, 0, 0, 0, 0, 0xCC, 0] := by decide +kernel
theorem test_trSetPower_frame :
    (after (.trSetPower 200) (trWith tr0)).bind (·.built) =
      some [0x0F, 0x50, 0xC8, 0, 0, 0, 0, 0, 0, 0, 0, 0, 0, 0, 0x18, 0] := by decide +kernel
theorem test_trSetActive_frame :
    (after (.trSetActive true) (trWith tr0)).bind (·.built) =
      some [0x0F, 0x49, 0, 0, 0, 0, 0, 0, 0, 0, 0, 0, 0, 0, 0x49, 0] := by decide +kernel
theorem test_trReplyReset_leaves_offline :
    ((trAfter (.trReplyReset 5600 6000 600) (trWith tr0)).map fun e => (e.state, e.minFreq, e.maxFreq, e.maxPower)) =
      some (.init, 5600, 6000, 600) := by decide
theorem test_trReplyReset_zero_power : trAfter (.trReplyReset 5600 6000 0) (trWith tr0) = some tr0 := by decide
theorem test_trReplyStatus_seeds_offline :
    ((trAfter (.trReplyStatus 5658 25 0 false 25) (trWith tr0)).map fun e => (e.desFreq, e.desPower, e.state, e.ready)) =
      some (5658, 25, .offline, false) := by decide
theorem test_trReplyTemp_zero_ignored :
    ((trAfter (.trReplyTemp 0) (trWith { tr0 with temp := 35 })).map (·.temp)) = some 35 := by decide
theorem test_tr_receiver_status :
    ((trRxList standardConfig [0x0F, 0x76, 0x1A, 0x16, 0x19, 0, 0x01, 0, 0x19, 0, 0, 0, 0, 0, 0xD9, 0] tr0).toOption.map fun e =>
      (e.obsFreq, e.ctrlFlags, e.badFrame)) = some (5658, 1, 0) := by decide +kernel
theorem test_tr_receiver_double_header :
    ((trRxList standardConfig [0x0F, 0x0F, 0x76] tr0).toOption.map (·.rx)) = some .waitHeader := by decide +kernel
theorem test_poll_corrects_frequency :
    (trAfter (.poll []) (State.at 1200 (trWith trMon))).map (fun e => (e.retry, e.state, e.lastReq)) =
      some (19, .config, some 1200) := by decide +kernel
theorem test_poll_waits_200ms : sentBy (.poll []) (State.at 1199 (trWith trMon)) = [] := by decide +kernel
theorem test_setFreq_race_locked : sentBy (.setFreq 5740) (trWith { trMon with ctrlFlags := 1 }) = [] := by
  decide +kernel
theorem test_setPit_race_locked_still_sends :
    sentBy (.setPit true) (trWith { trMon with ctrlFlags := 1 }) =
      wire [0x0F, 0x49, 0, 0, 0, 0, 0, 0, 0, 0, 0, 0, 0, 0, 0x49, 0] := by decide +kernel
theorem test_setPower_0_sends :
    sentBy (.setPower 0) (trWith trMon) = wire [0x0F, 0x50, 0, 0, 0, 0, 0, 0, 0, 0, 0, 0, 0, 0, 0x50, 0] := by
  decide +kernel

/-! Witnesses: for every statement with hypotheses, a state and operands that meet them, one for each clause. -/

/-- The frame of a V1 settings reply with payload 22 01 (§1 E5). -/
def replyV1 : List Byte := [0xAA, 0x55, 0x01, 0x02, 0x22, 0x01, 0x5D]

/-- A stimulus at time 7. -/
def stim (x : InWord) : Stimulus := ⟨7, x⟩

theorem witness_sa0_wf : sa0.Wf standardConfig := by decide +kernel
theorem witness_saDone_wf : saDone.Wf standardConfig := by decide +kernel
theorem witness_saWaiting_wf : (saWaiting 1 []).Wf standardConfig := by decide +kernel
theorem witness_saFull_wf : saFull.Wf standardConfig := by decide +kernel
theorem witness_tr0_wf : tr0.Wf standardConfig := by decide +kernel
theorem witness_trMon_wf : trMon.Wf standardConfig := by decide +kernel
theorem witness_standardConfig_valid : standardConfig.Valid := by decide
theorem witness_reset_inv : State.reset.Inv := ⟨by decide, by decide, trivial⟩
theorem witness_saWith_inv : (saWith (saWaiting 1 [])).Inv := ⟨by decide, by decide, rfl, witness_saWaiting_wf⟩
theorem witness_trWith_inv : (trWith trMon).Inv := ⟨by decide, by decide, rfl, witness_trMon_wf⟩

theorem witness_InitCreatesFreshEngine : State.reset.proto = .sa ∧ (trWith tr0).proto = .tramp := by decide
theorem witness_SwitchProtocolDiscardsEngine :
    exec (.switchProtocol .tramp) State.reset =
      .next { State.reset with proto := .tramp, engine := .none, result := some ⟨true, 0⟩ } := rfl
theorem witness_EngineOperationsFailWithoutEngine :
    State.reset.engine = .none ∧
    Instr.setPit true ∈ [Instr.poll [], .isReady, .setFreq 0, .setPower 0, .setPit true, .setBandCh 0 0] := by decide
theorem witness_FailedOperationChangesNothing :
    State.reset.Inv ∧ isHostOp (.poll []) = true ∧
    (after (.poll []) State.reset).bind (·.result) = some ⟨false, 0⟩ := ⟨witness_reset_inv, by decide, by decide⟩
theorem witness_IllegalOpFails :
    ((0x00 : Byte) = 0 ∨ 0x10 ≤ (0x00 : Byte).toNat) ∧ ((0x10 : Byte) = 0 ∨ 0x10 ≤ (0x10 : Byte).toNat) ∧
    ((0xFF : Byte) = 0 ∨ 0x10 ≤ (0xFF : Byte).toNat) ∧
    { State.reset with input := [stim (.hostOp 0x10 0 0 [])] }.input = ⟨7, .hostOp 0x10 0 0 []⟩ :: [] := by decide
theorem witness_StepRunsDecodedInstruction :
    { State.reset with input := [stim (.hostOp 0x08 0 0 [])] }.input = stim (.hostOp 0x08 0 0 []) :: [] ∧
    decode State.reset.cfg (stim (.hostOp 0x08 0 0 [])).word = .ok .protocolInUse ∧ State.reset.input = [] := by decide
theorem witness_StepRunsDecodedInstruction_no_frame :
    (decode standardConfig (.saReply [0x12])).toOption = none ∧ (saWith sa0).engine = .sa sa0 ∧
    (saRxList standardConfig [0x12] sa0).toOption.isSome = true ∧
    (decode standardConfig (.trReply [0x0F])).toOption = none ∧ (trWith tr0).engine = .tramp tr0 ∧
    (trRxList standardConfig [0x0F] tr0).toOption.isSome = true ∧
    (decode standardConfig (.saRequest [0x12])).toOption = none ∧
    (decode standardConfig (.trRequest [0x0F])).toOption = none ∧ State.reset.engine = .none := by decide +kernel
theorem test_step_counts_bytes_that_are_no_reply :
    ((afterStep { saWith sa0 with input := [stim (.saReply [0x12])] }).bind fun t =>
      match t.engine with | .sa e => some e.badPreamble | _ => none) = some 1 := by decide +kernel
theorem witness_ControllerQueriesAnswer :
    State.reset.engine = .none ∧ (saWith sa0).engine = .sa sa0 ∧ (trWith tr0).engine = .tramp tr0 := by decide
theorem witness_RegReadSmartAudioTable :
    (saWith saFull).engine = .sa saFull ∧ saFull.q.slots.length = 4 ∧
    ((0x00 : Byte), 0) ∈ [((0x00 : Byte), 0), (0x33, 2 ^ 31 + 1)] ∧ saFull.q.count = 4 := by decide +kernel
theorem witness_RegReadTrampTable :
    (trWith trMon).engine = .tramp trMon ∧ ((0x51 : Byte), trMon.badFrame) ∈ [((0x51 : Byte), 0)] := by decide
theorem witness_RegReadAbsentIdFails_no_engine :
    State.reset.engine = .none ∧ 3 ≤ (0x03 : Byte).toNat ∧ (∀ e, State.reset.engine ≠ .sa e) ∧
    ∀ e, State.reset.engine ≠ .tramp e :=
  ⟨rfl, by decide, fun _ h => Engine.noConfusion h, fun _ h => Engine.noConfusion h⟩
theorem witness_RegReadAbsentIdFails_sa :
    ∀ id ∈ ([0x0F, 0x1B, 0x1F, 0x2F, 0x34, 0x40] : List Byte), 3 ≤ id.toNat ∧
      ¬ (0x10 ≤ id.toNat ∧ id.toNat ≤ 0x1E ∧ id.toNat ≠ 0x1B) ∧ ¬ (0x30 ≤ id.toNat ∧ id.toNat ≤ 0x33) := by decide
theorem witness_RegReadAbsentIdFails_tramp :
    ∀ id ∈ ([0x03, 0x3F, 0x4F, 0x50, 0x52, 0xFF] : List Byte), 3 ≤ id.toNat ∧
      ¬ (0x40 ≤ id.toNat ∧ id.toNat ≤ 0x4E) ∧ id.toNat ≠ 0x51 := by decide

theorem witness_CrcSelfCheckAndLinearity : ([0xAA, 0x55] : List Byte).length = ([0x01, 0x02] : List Byte).length := rfl
theorem witness_CrcDetectsSingleBitFlips :
    0 < (([0xAA] : List Byte) ++ [crc8 [0xAA]]).length ∧ 0 < 8 ∧
    1 < (([0xAA] : List Byte) ++ [crc8 [0xAA]]).length ∧ 7 < 8 := by decide
theorem witness_TrampChecksumIgnoresOrder :
    (trSetFrequencyFrame 5740).length = 16 ∧ (trSetFrequencyFrame 0x6C16).length = 16 ∧
    (((trSetFrequencyFrame 5740).drop 1).take 13).Perm (((trSetFrequencyFrame 0x6C16).drop 1).take 13) := by
  decide +kernel
theorem witness_TrampChecksumDetectsByteChange :
    (trSetFrequencyFrame 5740).length = 16 ∧ 1 ≤ 1 ∧ 13 ≤ 13 ∧ (trSetFrequencyFrame 5740)[1]? ≠ some 0 ∧
    (trSetFrequencyFrame 5740)[13]? ≠ some 1 ∧
    (trSetFrequencyFrame 5740)[14]? = some (trampChecksum (trSetFrequencyFrame 5740)) := by decide +kernel
theorem witness_TrampChecksumOperationsAnswer :
    ([] : List Byte).length ≠ 16 ∧ (List.replicate 15 (0 : Byte)).length ≠ 16 ∧
    (List.replicate 17 (0 : Byte)).length ≠ 16 := by decide
theorem witness_BandChannelLookup :
    (1 : Byte).toNat = (0 : Fin 5) + 1 ∧ (1 : Byte).toNat = (0 : Fin 8) + 1 ∧ (5 : Byte).toNat = (4 : Fin 5) + 1 ∧
    (8 : Byte).toNat = (7 : Fin 8) + 1 ∧ State.reset.cfg = standardConfig ∧
    ¬ (1 ≤ (0 : Byte).toNat ∧ (0 : Byte).toNat ≤ 5 ∧ 1 ≤ (1 : Byte).toNat ∧ (1 : Byte).toNat ≤ 8) ∧
    ¬ (1 ≤ (6 : Byte).toNat ∧ (6 : Byte).toNat ≤ 5 ∧ 1 ≤ (1 : Byte).toNat ∧ (1 : Byte).toNat ≤ 8) ∧
    ¬ (1 ≤ (1 : Byte).toNat ∧ (1 : Byte).toNat ≤ 5 ∧ 1 ≤ (9 : Byte).toNat ∧ (9 : Byte).toNat ≤ 8) := by decide

theorem witness_DecodeOfEncode :
    standardConfig.Valid ∧ (Instr.saSetChannel 39).wellFormed standardConfig = true ∧
    (Instr.saReplyOther 0x7F (List.replicate 16 0)).wellFormed standardConfig = true := by decide
theorem witness_DecodedIsWellFormed :
    decode standardConfig (.saRequest [0xAA, 0x55, 0x07, 0x01, 0x27, 0x48]) = .ok (.saSetChannel 39) := by decide +kernel
theorem witness_EncodeOfDecodedFrame :
    decode standardConfig (.saRequest [0xAA, 0x55, 0x0B, 0x01, 0x01, 0xF8]) = .ok (.saSetMode 1) ∧
    decode standardConfig (.saReply replyV1) = .ok (.saReplySettingsV1 [0x22, 0x01]) ∧
    decode standardConfig (.trRequest [0x0F, 0x49, 0, 0, 0, 0, 0, 0, 0, 0, 0, 0, 0, 0, 0x49, 0]) =
      .ok (.trSetActive true) := by decide +kernel

theorem witness_SmartAudioRequestFrames :
    (saWith sa0).engine = .sa sa0 ∧ (0x166C : Half).toNat = (0x16 : Byte).toNat * 256 + (0x6C : Byte).toNat := by decide
theorem witness_TrampRequestFrames :
    (trWith tr0).engine = .tramp tr0 ∧ (1 : Half).toNat = (0 : Byte).toNat * 256 + (1 : Byte).toNat ∧
    (1 : Half) = (if false then (trWith tr0).cfg.trPitInactive else (trWith tr0).cfg.trPitActive) := by decide

theorem witness_QueueIsBoundedFifo :
    saFull.q.slots.length = 4 ∧ saFull.q.head < 4 ∧ saFull.q.count ≤ 4 ∧ 0 < saFull.q.count ∧
    sa0.q.slots.length = 4 ∧ sa0.q.head < 4 ∧ sa0.q.count ≤ 4 := by decide
theorem witness_SmartAudioSetFreq :
    (saWith saFull).engine = .sa saFull ∧ saFull.q.slots.length = 4 ∧ saFull.q.count = 4 ∧ sa0.q.count ≠ 4 ∧
    (saWith sa0).engine = .sa sa0 ∧ sa0.q.slots.length = 4 ∧
    (4999 : Half).toNat = (0x13 : Byte).toNat * 256 + (0x87 : Byte).toNat ∧ (4999 : Half).toNat < 5000 ∧
    (5000 : Half).toNat = (0x13 : Byte).toNat * 256 + (0x88 : Byte).toNat ∧ 5000 ≤ (5000 : Half).toNat ∧
    (5999 : Half).toNat = (0x17 : Byte).toNat * 256 + (0x6F : Byte).toNat ∧ (5999 : Half).toNat ≤ 5999 ∧
    (6000 : Half).toNat = (0x17 : Byte).toNat * 256 + (0x70 : Byte).toNat ∧ 5999 < (6000 : Half).toNat := by decide +kernel
theorem witness_SmartAudioSetPower :
    (saWith saDone).engine = .sa saDone ∧ saDone.q.slots.length = 4 ∧
    (∀ x ∈ (saWith saDone).cfg.saPowerMap, ¬ (x.version = saDone.version ∧ x.mw = 100)) ∧
    (saWith saDone).cfg.saPowerMap = (saWith saDone).cfg.saPowerMap.take 8 ++
      ⟨saDone.version, 25, 0⟩ :: (saWith saDone).cfg.saPowerMap.drop 9 ∧
    (∀ x ∈ (saWith saDone).cfg.saPowerMap.take 8, ¬ (x.version = saDone.version ∧ x.mw = 25)) := by decide
theorem witness_SmartAudioSetPit :
    (saWith sa0).engine = .sa sa0 ∧ sa0.q.slots.length = 4 ∧ (sa0.version = .unknown ∨ sa0.version = .v1) ∧
    (saWith saDone).engine = .sa saDone ∧ saDone.q.slots.length = 4 ∧
    (saDone.version = .v2 ∨ saDone.version = .v21) := by decide
theorem witness_SmartAudioSetBandCh :
    (saWith sa0).engine = .sa sa0 ∧ sa0.q.slots.length = 4 ∧
    ¬ (1 ≤ (0 : Byte).toNat ∧ (0 : Byte).toNat ≤ 5 ∧ 1 ≤ (1 : Byte).toNat ∧ (1 : Byte).toNat ≤ 8) ∧
    (1 : Byte).toNat = (0 : Fin 5) + 1 ∧ (1 : Byte).toNat = (0 : Fin 8) + 1 ∧ (0 : Byte).toNat = 0 * 8 + 0 ∧
    (5 : Byte).toNat = (4 : Fin 5) + 1 ∧ (8 : Byte).toNat = (7 : Fin 8) + 1 ∧ (39 : Byte).toNat = 4 * 8 + 7 := by decide

theorem witness_SmartAudioHeaderBytes :
    sa0.rx = .waitPreamble1 ∧ { sa0 with rx := .waitPreamble2 }.rx = .waitPreamble2 ∧
    { sa0 with rx := .waitCommand }.rx = .waitCommand ∧ { sa0 with rx := .waitLength }.rx = .waitLength := by decide
theorem witness_SmartAudioReceiverDecodesReply :
    (saWith sa0).cfg.Valid ∧ (saWith sa0).engine = .sa sa0 ∧ sa0.rx = .waitPreamble1 ∧
    (Instr.saReplySettingsV1 [0x22, 0x01]).wellFormed (saWith sa0).cfg = true ∧
    encode (saWith sa0).cfg (.saReplySettingsV1 [0x22, 0x01]) = .saReply replyV1 := by decide +kernel
theorem witness_SmartAudioReceiverDiscardsBadCrc :
    standardConfig.Valid ∧ sa0.rx = .waitPreamble1 ∧ ([0x22, 0x01] : List Byte).length ≤ standardConfig.saMaxPayload ∧
    (0x5C : Byte) ≠ crc8 ([0xAA, 0x55, 0x01, BitVec.ofNat 8 2] ++ [0x22, 0x01]) := by decide +kernel
theorem witness_ReceiversResumeSplitFrames :
    (saWith sa0).cfg.Valid ∧ (saWith sa0).engine = .sa sa0 ∧ (trWith tr0).engine = .tramp tr0 := by decide
theorem witness_SmartAudioSettingsReplies :
    (saWith (saWaiting 1 [])).engine = .sa (saWaiting 1 []) ∧ (saWaiting 1 []).outstanding = some 0x01 ∧
    0 < (saWaiting 1 []).q.count := by decide +kernel
theorem witness_SmartAudioFrequencyEcho :
    let s := { saWith (saWaiting 4 [0x16, 0x64]) with cfg := { standardConfig with saPitFlag := 0x4001 } }
    s.engine = .sa (saWaiting 4 [0x16, 0x64]) ∧ (saWaiting 4 [0x16, 0x64]).outstanding = some 0x04 ∧
    0 < (saWaiting 4 [0x16, 0x64]).q.count ∧
    (0x561C : Half).toNat = (0x56 : Byte).toNat * 256 + (0x1C : Byte).toNat ∧ (0x561C : Half) &&& s.cfg.saPitFlag ≠ 0 ∧
    (0x161C : Half).toNat = (0x16 : Byte).toNat * 256 + (0x1C : Byte).toNat ∧ (0x161C : Half) &&& s.cfg.saPitFlag = 0 ∧
    ([0x16] : List Byte).length < 2 := by decide +kernel
theorem witness_SmartAudioEchoesAndOtherReplies :
    (saWith (saWaiting 2 [1])).engine = .sa (saWaiting 2 [1]) ∧ (saWaiting 2 [1]).outstanding ≠ none ∧
    0 < (saWaiting 2 [1]).q.count ∧
    (0x7F : Byte) ∉ ([0x01, 0x09, 0x11, 0x02, 0x03, 0x04, 0x05] : List Byte) := by decide +kernel
theorem witness_FrameRowsNeedTheirEngine : (∀ e, State.reset.engine ≠ .sa e) ∧ ∀ e, State.reset.engine ≠ .tramp e := by
  simp [State.reset, State.resetWith]

theorem witness_FirstSmartAudioPollAsksSettings :
    State.reset.proto = .sa ∧ (after (.init true) State.reset).isSome = true := by decide
theorem witness_InitializationPhases :
    (saWith sa0).engine = .sa sa0 ∧ sa0.phase = .start ∧
    (saWith sa0).cfg.saPitFlag.toNat = (0x80 : Byte).toNat * 256 + (0x00 : Byte).toNat ∧ sa0.outstanding = none ∧
    ((queueEntries sa0.q ++ [(⟨0x01, [0xAA, 0x55, 0x03, 0x00, 0x9F]⟩ : Slot)]).take 4).head? =
      some ⟨0x01, [0xAA, 0x55, 0x03, 0x00, 0x9F]⟩ ∧
    (saWith saDone).engine = .sa saDone ∧ saDone.phase = .done ∧ saDone.outstanding = none ∧
    (queueEntries saDone.q).take 4 = [] ∧ saDone.lastTx = some 60 ∧
    ¬ standardConfig.saPollIntervalMs ≤ elapsed standardConfig (State.at 209 (saWith saDone)).now 60 ∧
    standardConfig.saPollIntervalMs ≤ elapsed standardConfig (State.at 210 (saWith saDone)).now 60 := by decide +kernel
theorem witness_InitializationPhases_outstanding :
    let e := { saWaiting 1 [] with phase := .waitSettings }
    e.Wf standardConfig ∧ e.version = .v2 ∧ e.outstanding ≠ none ∧ e.lastTx = some 0 ∧
    ¬ standardConfig.saCmdTimeoutMs ≤ elapsed standardConfig 119 0 ∧
    standardConfig.saCmdTimeoutMs ≤ elapsed standardConfig 120 0 ∧
    (queueEntries e.q).head? = some ⟨0x01, saFrame 0x01 []⟩ := by decide +kernel
theorem test_poll_asks_pit_frequency :
    ((saAfter (.poll []) (State.at 300 (saWith { saDone with phase := .waitSettings }))).map fun e =>
      (e.phase, (queueEntries e.q).map (·.bytes), e.outstanding)) =
      some (.waitPitFrequency, [[0xAA, 0x55, 0x09, 0x02, 0x80, 0x00, 0xD7]], some 4) := by decide +kernel
theorem witness_OutboundScheduler_waiting :
    (saWith (saWaiting 1 [])).engine = .sa (saWaiting 1 []) ∧ (saWaiting 1 []).phase = .done ∧
    (saWaiting 1 []).outstanding ≠ none ∧ (saWaiting 1 []).lastTx = some 0 ∧
    (queueEntries (saWaiting 1 []).q).head? = some ⟨0x01, saFrame 0x01 []⟩ ∧
    ¬ standardConfig.saCmdTimeoutMs ≤ elapsed standardConfig (State.at 119 (saWith (saWaiting 1 []))).now 0 ∧
    standardConfig.saCmdTimeoutMs ≤ elapsed standardConfig (State.at 120 (saWith (saWaiting 1 []))).now 0 := by decide +kernel
theorem witness_OutboundScheduler_front :
    (saWith saFull).engine = .sa saFull ∧ saFull.phase = .done ∧ saFull.outstanding = none ∧
    (queueEntries saFull.q).head? = some ⟨0x01, saGetSettingsFrame⟩ := by decide +kernel
theorem witness_OutboundScheduler_idle :
    (saWith saDone).engine = .sa saDone ∧ saDone.phase = .done ∧ saDone.outstanding = none ∧ saDone.q.count = 0 ∧
    saDone.lastTx = some 60 ∧
    ¬ standardConfig.saPollIntervalMs ≤ elapsed standardConfig (State.at 209 (saWith saDone)).now 60 ∧
    standardConfig.saPollIntervalMs ≤ elapsed standardConfig (State.at 210 (saWith saDone)).now 60 := by decide
theorem witness_OutstandingCommandBlocksQueue :
    (saWith (saWaiting 1 [])).engine = .sa (saWaiting 1 []) ∧ (saWaiting 1 []).outstanding = some 1 ∧
    (after (.poll []) (saWith (saWaiting 1 []))).isSome = true := by decide +kernel

theorem witness_TrampReplies :
    (trWith tr0).engine = .tramp tr0 ∧ ((5600 : Half) = 0 ∨ (6000 : Half) = 0 ∨ (0 : Half) = 0) ∧
    (5600 : Half) ≠ 0 ∧ (6000 : Half) ≠ 0 ∧ (600 : Half) ≠ 0 := by decide
theorem witness_TrampHeaderAndCodeBytes :
    tr0.rxBuf.length = 16 ∧ tr0.rx = .waitHeader ∧ { tr0 with rx := .waitResponseCode }.rx = .waitResponseCode ∧
    { tr0 with rx := .accumulateData, rxCount := 14 }.rx = .accumulateData ∧
    { tr0 with rx := .accumulateData, rxCount := 14 }.rxCount < 15 := by decide
theorem witness_TrampReceiverDecodesReply :
    (trWith tr0).engine = .tramp tr0 ∧ tr0.rx = .waitHeader ∧
    decode (trWith tr0).cfg (.trReply [0x0F, 0x76, 0x1A, 0x16, 0x19, 0, 1, 0xFF, 0x19, 0, 7, 7, 7, 7, 0xF4, 0]) =
      .ok (.trReplyStatus 5658 25 1 true 25) := by decide +kernel
theorem witness_TrampReceiverDiscardsBadFrame :
    tr0.rx = .waitHeader ∧ (0x76 : Byte) ∈ ([0x72, 0x76, 0x73] : List Byte) ∧ (List.replicate 14 (0 : Byte)).length = 14 ∧
    ¬ ((List.replicate 14 (0 : Byte))[12]? = some (trampChecksum (0x0F :: 0x76 :: List.replicate 14 0)) ∧
      (List.replicate 14 (0 : Byte))[13]? = some 0x00) := by decide +kernel
theorem witness_TrampStepOutsideMonitor :
    (trWith tr0).engine = .tramp tr0 ∧ tr0.state = .offline ∧ tr0.lastReq = none ∧
    standardConfig.trInitPeriodMs ≤ elapsed standardConfig 1000 0 ∧
    ¬ standardConfig.trInitPeriodMs ≤ elapsed standardConfig 999 0 ∧ { tr0 with state := .init }.state = .init ∧
    { trMon with state := .monTemp }.state = .monTemp ∧ { trMon with state := .config }.state = .config ∧
    trMon.state = .monFreqPwrPit ∧ trMon.lastReq = some 1000 ∧ 200 ≤ elapsed standardConfig 1200 1000 ∧
    ¬ 200 ≤ elapsed standardConfig 1199 1000 := by decide
theorem witness_TrampMonitorConverges :
    (State.at 1200 (trWith trMon)).engine = .tramp trMon ∧ trMon.state = .monFreqPwrPit ∧
    trMon.lastReq = some 1000 ∧ 200 ≤ elapsed standardConfig (State.at 1200 (trWith trMon)).now 1000 ∧ 0 < trMon.retry ∧
    ¬ trMon.ctrlFlags &&& standardConfig.trRaceLockMask ≠ 0 ∧ trMon.desFreq ≠ 0 ∧ trMon.desFreq ≠ trMon.obsFreq := by
  decide
theorem witness_TrampMonitorConverges_power :
    let e := { trMon with obsFreq := 5740, desPower := 200 }
    ¬ (e.desFreq ≠ 0 ∧ e.desFreq ≠ e.obsFreq) ∧ ¬ e.ctrlFlags &&& standardConfig.trRaceLockMask ≠ 0 ∧
    e.desPower ≠ 0 ∧ e.desPower ≠ e.obsPower := by decide
theorem witness_TrampMonitorConverges_pit :
    let e := { trMon with ctrlFlags := 1, desPit := .on }
    e.ctrlFlags &&& standardConfig.trRaceLockMask ≠ 0 ∧ e.desPit = .on ∧ e.obsPit = false := by decide
theorem witness_TrampMonitorConverges_converged :
    let e := { trMon with obsFreq := 5740, retry := 7 }
    0 < e.retry ∧ ¬ (e.desFreq ≠ 0 ∧ e.desFreq ≠ e.obsFreq) ∧ ¬ (e.desPower ≠ 0 ∧ e.desPower ≠ e.obsPower) ∧
    e.desPit = .unset := by decide
theorem witness_TrampMonitorConverges_exhausted : { trMon with retry := 0 }.retry = 0 := rfl
theorem witness_TrampSetFreqAndPower :
    (trWith trMon).engine = .tramp trMon ∧
    (4999 : Half).toNat = (0x13 : Byte).toNat * 256 + (0x87 : Byte).toNat ∧ (4999 : Half).toNat < 5000 ∧
    (5000 : Half).toNat = (0x13 : Byte).toNat * 256 + (0x88 : Byte).toNat ∧ 5000 ≤ (5000 : Half).toNat ∧
    (5999 : Half).toNat = (0x17 : Byte).toNat * 256 + (0x6F : Byte).toNat ∧ (5999 : Half).toNat ≤ 5999 ∧
    ¬ trMon.ctrlFlags &&& (trWith trMon).cfg.trRaceLockMask ≠ 0 ∧
    { trMon with ctrlFlags := 1 }.ctrlFlags &&& (trWith trMon).cfg.trRaceLockMask ≠ 0 := by decide
theorem witness_TrampSetPitAndBandCh :
    (trWith trMon).engine = .tramp trMon ∧
    (if true then (trWith trMon).cfg.trPitInactive else (trWith trMon).cfg.trPitActive).toNat =
      (0 : Byte).toNat * 256 + (0 : Byte).toNat := by decide
theorem witness_RetryBudgetChanges :
    (State.at 1200 (trWith trMon)).engine = .tramp trMon ∧ replacesEngine (.poll []) = false ∧
    (trAfter (.poll []) (State.at 1200 (trWith trMon))).isSome = true ∧ replacesEngine (.setPit true) = false ∧
    resultOf (.setPit true) (trWith trMon) = some (true, 0) ∧ (trAfter (.setPit true) (trWith trMon)).isSome = true := by
  decide +kernel
theorem witness_TrampFramesAreSpaced :
    (trWith trMon).engine = .tramp trMon ∧
    (trMon.state = .monFreqPwrPit ∨ trMon.state = .monTemp ∨ trMon.state = .config) ∧ trMon.lastReq = some 1000 ∧
    (after (.poll [0x0F]) (State.at 1200 (trWith trMon))).isSome = true := by decide +kernel

theorem witness_EngineLifetime :
    (after .isReady (saWith sa0)).isSome = true ∧ replacesEngine .isReady = false ∧ Instr.isReady ≠ .switchProtocol .sa := by
  decide
theorem witness_TxStreamOnlyGrows : (after (.init true) State.reset).isSome = true := by decide
theorem witness_StepKeepsRanges :
    (afterStep { saWith (saWaiting 1 []) with input := [stim (.hostOp 0x02 0 0 replyV1)] }).isSome = true := by
  decide +kernel
theorem witness_StepKeepsTxWellFormed :
    { saWith (saWaiting 1 []) with tx := [.configure 4800 8 2 .none, .group (0x00 :: saFrame 0x01 []), .flush] }.TxWf ∧
    (afterStep { saWith (saWaiting 1 []) with input := [⟨500, .hostOp 0x02 0 0 []⟩] }).isSome = true :=
  ⟨⟨some .sa, by decide +kernel, rfl⟩, by decide +kernel⟩

/-- INIT at 5 ms and POLLs at 10 and 20 ms. -/
def dutifulRun : List HostEvent :=
  [⟨⟨5, .hostOp 0x01 0 1 []⟩, 5, [], none, []⟩,
   ⟨⟨10, .hostOp 0x02 0 0 []⟩, 10, [], some (.configure 4800 8 2 .none), [0x00, 0xAA, 0x55, 0x03, 0x00, 0x9F]⟩,
   ⟨⟨20, .hostOp 0x02 0 0 [0xAA]⟩, 20, [⟨0xAA, false⟩], some (.configure 4800 8 2 .none), []⟩]

/-- Reset with that run's operations to come. -/
def dutifulStart : State := { State.resetWith standardConfig with input := dutifulRun.map (·.stim) }

theorem witness_HostDuties : HostDuties 10 dutifulStart dutifulRun where
  oneAtATime := ⟨rfl, by simp [dutifulRun]⟩
  clock := by decide
  intervals := by
    intro pre o mid p post k v h _ _ _ _
    have : ∀ x ∈ hostTrace dutifulStart dutifulRun, x.event.ms ≤ 20 := by decide +kernel
    have hp := this p (by simp [h])
    exact Nat.lt_of_le_of_lt (Nat.le_trans (Nat.sub_le _ _) hp) (by decide)
  configApplied := by decide +kernel
  rxDelivered := by simp [deliversRx, dutifulRun, pollList]
  noLoopback := by decide
  steadyCadence := by
    intro pre x mid y post h hx hy _
    have hall : ∀ z ∈ dutifulRun, z.ms ≤ 20 := by decide
    have hpoll : ∀ z ∈ dutifulRun, z.isPoll = true → 10 ≤ z.ms := by decide
    have h1 := hall y (by simp [h])
    have h2 := hpoll x (by simp [h]) hx
    omega
  txSentInOrder := by decide +kernel
theorem witness_HostDutiesMakeElapsedReal :
    (hostTrace dutifulStart dutifulRun).map
        (fun o => (o.event.isPoll, (engineStamps o.before.engine)[0]?, o.after.now)) =
      [(false, none, 5), (true, some none, 10), (true, some (some 10), 20)] ∧
    (3 : Nat) ≤ 2 ^ 32 + 1 ∧ 2 ^ 32 + 1 - 3 < 2 ^ standardConfig.timeWidth := by decide +kernel
theorem witness_ReadyIsSticky :
    replacesEngine (.poll replyV1) = false ∧ readyFlag (saWith saDone) = true ∧
    (after (.poll replyV1) (saWith saDone)).isSome = true := by decide +kernel

/-- `saWaiting 1 []` with other bytes in a dead slot. -/
def saOtherDead : SaEngine :=
  { saWaiting 1 [] with q := ⟨[⟨0x01, saFrame 0x01 []⟩, ⟨0, []⟩, ⟨3, [7]⟩, ⟨0, []⟩], 0, 1⟩ }

theorem witness_DeadSlotsAreUnobservable :
    (saWith (saWaiting 1 [])).SameButDeadSlots (saWith saOtherDead) ∧
    (after (.poll []) (saWith (saWaiting 1 []))).isSome = true := by
  refine ⟨⟨rfl, rfl, ?_, rfl⟩, by decide +kernel⟩
  decide +kernel

end Sys2Proof.Tests
end

section
/-! PROOFS. The requests that the block puts into its queue are frames that its own decoder reads back as requests it
sends (30_encoding.md R74, R76), and what the queue operations do to the list of live entries (10_state.md R32). -/

namespace Sys2Proof.Machine

/-! Requests of the block. -/

/-- The frame parser reads back what the encoder writes, when the payload fits (R74). -/
theorem parseSaFrame_saRawFrame {c : Config} {cmd : Byte} {p : List Byte} (hc : c.saMaxPayload ≤ 255)
    (hp : p.length ≤ c.saMaxPayload) : parseSaFrame c (saRawFrame cmd p) = .ok (cmd, p) := by
  have hlen : (BitVec.ofNat 8 p.length).toNat = p.length := by
    rw [BitVec.toNat_ofNat, Nat.mod_eq_of_lt (by omega)]
  simp only [parseSaFrame, saRawFrame, List.cons_append, List.nil_append, hlen, hp]
  simp

/-- A request frame whose payload fits and decodes to a request that the block sends is valid in a slot. -/
theorem slotValid_saFrame {c : Config} {id : CmdId} {p : List Byte} {i : Instr} (hc : c.Valid) (hp : p.length ≤ 2)
    (hd : decodeSaRequest (saRequestByte id) p = .ok i) (hi : isSentRequest c i = true) :
    slotValid c ⟨id, saFrame id p⟩ = true := by
  obtain ⟨hmin, hmax, -, -⟩ := hc
  have hparse : parseSaFrame c (saFrame id p) = .ok (saRequestByte id, p) :=
    parseSaFrame_saRawFrame hmax (by omega)
  have hdec : decode c (requestWord .sa (saFrame id p)) = .ok i := by
    simp only [decode, requestWord, hparse]
    exact hd
  have hcmd : (saFrame id p).getD 2 0 = saRequestByte id := saRawFrame_cmd _ _
  simp only [slotValid, isRequestOf, hdec, hi, hcmd, decide_true, Bool.and_self]

theorem slotValid_saGetSettings {c : Config} (hc : c.Valid) :
    slotValid c ⟨saIdGetSettings, saGetSettingsFrame⟩ = true :=
  slotValid_saFrame (i := .saGetSettings) hc (by simp) rfl rfl

theorem slotValid_saSetPower {c : Config} (pw : Byte) (hc : c.Valid) :
    slotValid c ⟨saIdSetPower, saSetPowerFrame pw⟩ = true :=
  slotValid_saFrame (i := .saSetPower pw) hc (by simp) rfl rfl

/-- A channel index that the block computes from a band and channel in range is one it sends (R76, R89). -/
theorem slotValid_saSetChannel {c : Config} {band channel : Byte} (h : bandChannelInRange band channel = true)
    (hc : c.Valid) : slotValid c ⟨saIdSetChannel, saSetChannelFrame (channelIndex band channel)⟩ = true := by
  simp only [bandChannelInRange, decide_eq_true_eq] at h
  refine slotValid_saFrame (i := .saSetChannel (channelIndex band channel)) hc (by simp) rfl ?_
  simp only [isSentRequest, channelIndex, BitVec.toNat_ofNat, decide_eq_true_eq]
  omega

theorem slotValid_saSetFrequency {c : Config} {v : Half} (h : freqInRange v = true ∨ v = c.saPitFlag) (hc : c.Valid) :
    slotValid c ⟨saIdSetFrequency, saSetFrequencyFrame v⟩ = true := by
  refine slotValid_saFrame (i := .saSetFrequency v) hc (by simp) ?_ (by simpa [isSentRequest] using h)
  exact congrArg (Except.ok ∘ Instr.saSetFrequency) (u16be_bytes v)

theorem slotValid_saSetMode {c : Config} (on : Bool) (hc : c.Valid) :
    slotValid c ⟨saIdSetMode, saSetModeFrame (saPitMode on)⟩ = true :=
  slotValid_saFrame (i := .saSetMode (saPitMode on)) hc (by simp) rfl (by cases on <;> rfl)

/-! The queue as a list. -/

/-- An enqueue drops the command when the queue is full and else appends it (43_sa_engine.md R119). -/
theorem queueEntries_push {q q' : SaQueue} {f : List Byte} {id : CmdId} (hl : q.slots.length = 4)
    (hc : q.count ≤ 4) (h : queuePush f id q = .ok q') :
    queueEntries q' = queueEntries q ∨ queueEntries q' = queueEntries q ++ [⟨id, f⟩] := by
  rcases queuePush_ok h with ⟨-, rfl⟩ | ⟨hroom, hi, rfl⟩
  · exact .inl rfl
  · refine .inr (List.ext_getElem? fun k => ?_)
    rw [queueEntries_getElem? (by simpa using hl)]
    simp only [List.getElem?_set]
    rcases Nat.lt_trichotomy k q.count with hk | rfl | hk
    · have hne : (q.head + q.count) % 4 ≠ (q.head + k) % 4 := by omega
      rw [List.getElem?_append_left (by rwa [queueEntries_length hl]), queueEntries_getElem? hl, if_pos hk,
        if_pos (by omega), if_neg hne]
    · rw [List.getElem?_append_right (by rw [queueEntries_length hl]), queueEntries_length hl]
      simp [hi]
    · rw [if_neg (by omega), List.getElem?_eq_none]
      simp only [List.length_append, queueEntries_length hl, List.length_singleton]
      omega

/-- A dequeue removes the front entry (R120). -/
theorem queueEntries_pop {q : SaQueue} (hl : q.slots.length = 4) :
    queueEntries { q with head := (q.head + 1) % 4, count := q.count - 1 } = (queueEntries q).tail := by
  refine List.ext_getElem? fun k => ?_
  rw [queueEntries_getElem? (by exact hl), List.getElem?_tail, queueEntries_getElem? hl]
  have hpos : ((q.head + 1) % 4 + k) % 4 = (q.head + (k + 1)) % 4 := by omega
  rw [hpos]
  exact if_congr (by dsimp only; omega) rfl rfl

theorem queuePush_wf {c : Config} {q q' : SaQueue} {f : List Byte} {id : CmdId} (hq : q.Wf c)
    (hv : slotValid c ⟨id, f⟩ = true) (h : queuePush f id q = .ok q') : q'.Wf c := by
  obtain ⟨hl, hh, hc, hlive⟩ := hq
  have hlive' : ∀ x ∈ queueEntries q', slotValid c x := by
    rcases queueEntries_push hl hc h with he | he <;> rw [he]
    · exact hlive
    · simpa [or_imp, forall_and, hv] using hlive
  rcases queuePush_ok h with ⟨-, rfl⟩ | ⟨hroom, -, rfl⟩
  · exact ⟨hl, hh, hc, hlive⟩
  · exact ⟨by simpa using hl, hh, by simp only [saQueueCap] at hc ⊢; omega, hlive'⟩

theorem queuePop_wf {c : Config} {q : SaQueue} (hq : q.Wf c) :
    SaQueue.Wf c { q with head := (q.head + 1) % 4, count := q.count - 1 } := by
  obtain ⟨hl, hh, hc, hlive⟩ := hq
  refine ⟨hl, Nat.mod_lt _ (by decide), (Nat.sub_le _ _).trans hc, ?_⟩
  rw [queueEntries_pop hl]
  exact fun x hx => hlive x (List.mem_of_mem_tail hx)

/-- An enqueue leaves a live front entry where it is (R119). -/
theorem queueEntries_head?_push {q q' : SaQueue} {f : List Byte} {id : CmdId} {x : Slot} (hl : q.slots.length = 4)
    (hc : q.count ≤ 4) (hx : (queueEntries q).head? = some x) (h : queuePush f id q = .ok q') :
    (queueEntries q').head? = some x := by
  rcases queueEntries_push hl hc h with he | he <;> simp [he, hx]

theorem freshQueue_wf (c : Config) : freshQueue.Wf c := by
  refine ⟨rfl, by decide, by decide, ?_⟩
  have hnil : queueEntries freshQueue = [] := rfl
  simp [hnil]

end Sys2Proof.Machine
end

section
/-! PROOFS. What one step can do to the engine slot, said once for every instruction and every word: the statements about
steps are derived from this and from the rules of the engines. -/

namespace Sys2Proof.Machine

/-- The ways in which a step can change a SmartAudio engine from `e`: a POLL (46_host_ops.md R161), a command put into
the queue by a setter (43_sa_engine.md R128 to R132), a reply (42_sa_frames.md R113), or bytes received (R105). -/
inductive SaMove (c : Config) (now : Nat) (e : SaEngine) : SaEngine → Prop where
  | poll {rx : List Byte} {e' : SaEngine} {f : Option (List Byte)} (h : saPoll c now rx e = .ok (e', f)) :
      SaMove c now e e'
  | enqueue {f : List Byte} {id : CmdId} {q : SaQueue} (hv : c.Valid → slotValid c ⟨id, f⟩ = true)
      (h : queuePush f id e.q = .ok q) : SaMove c now e { e with q := q }
  | reply {r : Byte} {p : List Byte} {e' : SaEngine} (h : saDispatch c r p e = .ok e') : SaMove c now e e'
  | receive {ds : List Byte} {e' : SaEngine} (h : saRxList c ds e = .ok e') : SaMove c now e e'

/-- The ways in which a step can change a TRAMP engine from `e`: a POLL (R161), a setter (45_tramp_engine.md R150 to
R152), a reply (44_tramp_frames.md R142 to R144), or bytes received (R136). -/
inductive TrMove (c : Config) (now : Nat) (e : TrEngine) : TrEngine → Prop where
  | poll {rx : List Byte} {e' : TrEngine} {f : Option (List Byte)} (h : trPoll c now rx e = .ok (e', f)) :
      TrMove c now e e'
  | setFrequency {v : Half} {e' : TrEngine} {f : Option (List Byte)} (h : trSetFrequency c now v e = some (e', f)) :
      TrMove c now e e'
  | setPower {mw : Half} {e' : TrEngine} {f : Option (List Byte)} (h : trSetPower c now mw e = some (e', f)) :
      TrMove c now e e'
  | setPitMode {on : Bool} {e' : TrEngine} {f : Option (List Byte)} (h : trSetPitMode c now on e = some (e', f)) :
      TrMove c now e e'
  | replyReset (mn mx mp : Half) : TrMove c now e (trRespReset mn mx mp e)
  | replyStatus (freq power : Half) (ctrl : Byte) (pit : Bool) (act : Half) :
      TrMove c now e (trRespStatus freq power ctrl pit act e)
  | replyTemp (temp : Half) : TrMove c now e (trRespTemp temp e)
  | receive {ds : List Byte} {e' : TrEngine} (h : trRxList c ds e = .ok e') : TrMove c now e e'

/-- The engine that INIT creates for a protocol (R158). -/
def freshEngine (c : Config) (p : Proto) : Engine :=
  match p with
  | .sa => .sa (freshSa c)
  | .tramp => .tramp freshTr

theorem createEngine_engine (s : State) : (createEngine s).engine = freshEngine s.cfg s.proto := by
  unfold createEngine freshEngine; cases s.proto <;> rfl

theorem createEngine_ports (s : State) : (createEngine s).cfg = s.cfg ∧ (createEngine s).now = s.now ∧
    (createEngine s).input = s.input ∧ (createEngine s).proto = s.proto := by
  unfold createEngine; cases hp : s.proto <;> exact ⟨rfl, rfl, rfl, hp⟩

/-- What can happen to the selected protocol and to the engine slot between `s` and `t`. -/
inductive SlotEffect (s t : State) : Prop where
  | keep (hp : t.proto = s.proto) (he : t.engine = s.engine)
  | discard (he : t.engine = .none)
  | create (hp : t.proto = s.proto) (he : t.engine = freshEngine s.cfg s.proto)
  | sa (hp : t.proto = s.proto) {e e' : SaEngine} (hs : s.engine = .sa e) (ht : t.engine = .sa e')
      (h : SaMove s.cfg s.now e e')
  | tramp (hp : t.proto = s.proto) {e e' : TrEngine} (hs : s.engine = .tramp e) (ht : t.engine = .tramp e')
      (h : TrMove s.cfg s.now e e')

/-- What an instruction can do: the parameters, the time and the pending stimuli stay, and the slot changes in one of the
ways of `SlotEffect`. -/
structure ExecEffect (s t : State) : Prop where
  cfg : t.cfg = s.cfg
  now : t.now = s.now
  input : t.input = s.input
  slot : SlotEffect s t

/-! The shared operations. -/

theorem ExecEffect.refl (s : State) : ExecEffect s s := ⟨rfl, rfl, rfl, .keep rfl rfl⟩

theorem ExecEffect.of_ret (ok : Bool) (data : Word) (s : State) : ExecEffect s (ret ok data s) :=
  ⟨rfl, rfl, rfl, .keep rfl rfl⟩

theorem ExecEffect.of_retFail (s : State) : ExecEffect s (retFail s) := .of_ret false 0 s

theorem ExecEffect.of_sa {s : State} {e e' : SaEngine} (hs : s.engine = .sa e) (h : SaMove s.cfg s.now e e') :
    ExecEffect s (setEngine (.sa e') s) :=
  ⟨rfl, rfl, rfl, .sa rfl hs rfl h⟩

theorem ExecEffect.of_tramp {s : State} {e e' : TrEngine} (hs : s.engine = .tramp e) (h : TrMove s.cfg s.now e e') :
    ExecEffect s (setEngine (.tramp e') s) :=
  ⟨rfl, rfl, rfl, .tramp rfl hs rfl h⟩

/-- A state that agrees on parameters, time, pending stimuli, protocol and engine has the same effect. -/
theorem ExecEffect.congr {s t u : State} (h : ExecEffect s t) (hc : u.cfg = t.cfg) (hn : u.now = t.now)
    (hi : u.input = t.input) (hp : u.proto = t.proto) (he : u.engine = t.engine) : ExecEffect s u where
  cfg := hc.trans h.cfg
  now := hn.trans h.now
  input := hi.trans h.input
  slot :=
    match h.slot with
    | .keep hp' he' => .keep (hp.trans hp') (he.trans he')
    | .discard he' => .discard (he.trans he')
    | .create hp' he' => .create (hp.trans hp') (he.trans he')
    | .sa hp' hs ht hm => .sa (hp.trans hp') hs (he.trans ht) hm
    | .tramp hp' hs ht hm => .tramp (hp.trans hp') hs (he.trans ht) hm

/-- Giving the result and sending a frame add nothing to the effect. -/
theorem ExecEffect.retOk_txSent {s t : State} (f : Option (List Byte)) (h : ExecEffect s t) :
    ExecEffect s (retOk (txSent f t)) :=
  h.congr (by simp) (by simp) (by simp) (by simp) (by simp)

theorem execEffect_of_buildSa {f : Option (List Byte)} {s t : State} (h : buildSa f s = .next t) : ExecEffect s t := by
  rcases buildSa_next h with ⟨-, rfl⟩ | ⟨-, rfl⟩
  · exact .refl _
  · exact ⟨rfl, rfl, rfl, .keep rfl rfl⟩

theorem execEffect_of_buildTr {f : Option (List Byte)} {s t : State} (h : buildTr f s = .next t) : ExecEffect s t := by
  rcases buildTr_next h with ⟨-, rfl⟩ | ⟨-, rfl⟩
  · exact .refl _
  · exact ⟨rfl, rfl, rfl, .keep rfl rfl⟩

theorem execEffect_of_onSa {r : SaEngine → Except Fault SaEngine} {s t : State}
    (hr : ∀ e e', r e = .ok e' → SaMove s.cfg s.now e e') (h : onSa r s = .next t) : ExecEffect s t := by
  rcases onSa_next h with ⟨-, rfl⟩ | ⟨e, e', hs, he, rfl⟩
  · exact .refl _
  · exact .of_sa hs (hr e e' he)

theorem execEffect_of_onTr {r : TrEngine → Except Fault TrEngine} {s t : State}
    (hr : ∀ e e', r e = .ok e' → TrMove s.cfg s.now e e') (h : onTr r s = .next t) : ExecEffect s t := by
  rcases onTr_next h with ⟨-, rfl⟩ | ⟨e, e', hs, he, rfl⟩
  · exact .refl _
  · exact .of_tramp hs (hr e e' he)

theorem execEffect_of_trReply {r : TrEngine → TrEngine} {s t : State} (hr : ∀ e, TrMove s.cfg s.now e (r e))
    (h : onTr (fun e => .ok (r e)) s = .next t) : ExecEffect s t :=
  execEffect_of_onTr (fun e _ he => by cases he; exact hr e) h

theorem execEffect_of_saDispatch {r : Byte} {p : List Byte} {s t : State}
    (h : onSa (saDispatch s.cfg r p) s = .next t) : ExecEffect s t :=
  execEffect_of_onSa (fun _ _ => .reply) h

theorem execEffect_of_saSetter {r : SaEngine → Except Fault (Option SaEngine)} {s t : State} {e : SaEngine}
    (hs : s.engine = .sa e) (hr : ∀ e', r e = .ok (some e') → SaMove s.cfg s.now e e')
    (h : finishSaSetter (r e) s = .next t) : ExecEffect s t := by
  rcases finishSaSetter_next h with ⟨-, rfl⟩ | ⟨e', he, rfl⟩
  · exact .of_retFail s
  · exact (ExecEffect.of_sa hs (hr e' he)).retOk_txSent none

theorem execEffect_of_trSetter {r : TrEngine → Option (TrEngine × Option (List Byte))} {s t : State} {e : TrEngine}
    (hs : s.engine = .tramp e) (hr : ∀ e' f, r e = some (e', f) → TrMove s.cfg s.now e e')
    (h : finishTrSetter (r e) s = .next t) : ExecEffect s t := by
  rcases finishTrSetter_next h with ⟨-, rfl⟩ | ⟨e', f, he, rfl⟩
  · exact .of_retFail s
  · exact (ExecEffect.of_tramp hs (hr e' f he)).retOk_txSent f

/-! The SmartAudio setters: an accepted one enqueues a request that the block sends. -/

theorem saMove_of_saSend {c : Config} {now : Nat} {f : List Byte} {id : CmdId} {e e' : SaEngine}
    (hv : c.Valid → slotValid c ⟨id, f⟩ = true) (h : saSend f id e = .ok (some e')) : SaMove c now e e' := by
  obtain ⟨q, hq, he⟩ := saSend_ok h
  cases he
  exact .enqueue hv hq

theorem saMove_of_saSetFrequency {c : Config} {now : Nat} {f : Half} {e e' : SaEngine}
    (h : saSetFrequency f e = .ok (some e')) : SaMove c now e e' := by
  unfold saSetFrequency at h
  split at h
  · exact saMove_of_saSend (slotValid_saSetFrequency (.inl (by assumption))) h
  · simp at h

theorem saMove_of_saSetPower {c : Config} {now : Nat} {mw : Half} {e e' : SaEngine}
    (h : saSetPower c mw e = .ok (some e')) : SaMove c now e e' := by
  unfold saSetPower at h
  split at h
  · simp at h
  · exact saMove_of_saSend (slotValid_saSetPower _) h

theorem saMove_of_saSetPitMode {c : Config} {now : Nat} {on : Bool} {e e' : SaEngine}
    (h : saSetPitMode on e = .ok (some e')) : SaMove c now e e' := by
  unfold saSetPitMode at h
  split at h
  · exact saMove_of_saSend (slotValid_saSetMode on) h
  · simp at h

theorem saMove_of_saSetBandCh {c : Config} {now : Nat} {band channel : Byte} {e e' : SaEngine}
    (h : saSetBandCh band channel e = .ok (some e')) : SaMove c now e e' := by
  unfold saSetBandCh at h
  split at h
  · exact saMove_of_saSend (slotValid_saSetChannel (by assumption)) h
  · simp at h

/-! The host operations that write the slot. -/

theorem execEffect_of_init {present : Bool} {s t : State} (h : execInit present s = .next t) : ExecEffect s t := by
  unfold execInit at h
  split at h <;> cases h
  · obtain ⟨hc, hn, hi, hp⟩ := createEngine_ports s
    exact ⟨hc, hn, hi, .create hp (createEngine_engine s)⟩
  · exact .of_retFail s

theorem execEffect_of_poll {rx : List Byte} {s t : State} (h : execPoll rx s = .next t) : ExecEffect s t := by
  rcases execPoll_next h with ⟨-, rfl⟩ | ⟨e, e', f, hs, he, rfl⟩ | ⟨e, e', f, hs, he, rfl⟩
  · exact .of_retFail s
  · exact (ExecEffect.of_sa hs (.poll he)).retOk_txSent f
  · exact (ExecEffect.of_tramp hs (.poll he)).retOk_txSent f

theorem execEffect_of_isReady {s t : State} (h : execIsReady s = .next t) : ExecEffect s t := by
  unfold execIsReady at h
  split at h <;> cases h
  · exact .of_retFail s
  · exact .of_ret _ _ s
  · exact .of_ret _ _ s

theorem execEffect_of_setFreq {mhz : Half} {s t : State} (h : execSetFreq mhz s = .next t) : ExecEffect s t := by
  unfold execSetFreq at h
  split at h
  · cases h; exact .of_retFail s
  · exact execEffect_of_saSetter (by assumption) (fun _ => saMove_of_saSetFrequency) h
  · exact execEffect_of_trSetter (by assumption) (fun _ _ => .setFrequency) h

theorem execEffect_of_setPower {mw : Half} {s t : State} (h : execSetPower mw s = .next t) : ExecEffect s t := by
  unfold execSetPower at h
  split at h
  · cases h; exact .of_retFail s
  · exact execEffect_of_saSetter (by assumption) (fun _ => saMove_of_saSetPower) h
  · exact execEffect_of_trSetter (by assumption) (fun _ _ => .setPower) h

theorem execEffect_of_setPit {on : Bool} {s t : State} (h : execSetPit on s = .next t) : ExecEffect s t := by
  unfold execSetPit at h
  split at h
  · cases h; exact .of_retFail s
  · exact execEffect_of_saSetter (by assumption) (fun _ => saMove_of_saSetPitMode) h
  · exact execEffect_of_trSetter (by assumption) (fun _ _ => .setPitMode) h

theorem execEffect_of_setBandCh {band channel : Byte} {s t : State} (h : execSetBandCh band channel s = .next t) :
    ExecEffect s t := by
  unfold execSetBandCh at h
  split at h
  · cases h; exact .of_retFail s
  · exact execEffect_of_saSetter (by assumption) (fun _ => saMove_of_saSetBandCh) h
  · cases h; exact .of_retFail s

theorem execEffect_of_regRead {id : Byte} {s t : State} (h : execRegRead id s = .next t) : ExecEffect s t := by
  rcases execRegRead_next h with ⟨-, rfl⟩ | ⟨v, -, rfl⟩
  · exact .of_retFail s
  · exact .of_ret _ _ s

theorem execEffect_of_saValidate {m : List Byte} {s t : State} (h : execSaValidate m s = .next t) : ExecEffect s t := by
  unfold execSaValidate at h
  split at h <;> cases h
  · exact .of_retFail s
  · exact .of_ret _ _ s

theorem execEffect_of_trampChecksum {f : List Byte} {s t : State} (h : execTrampChecksum f s = .next t) :
    ExecEffect s t := by
  unfold execTrampChecksum at h
  split at h <;> cases h
  · exact .of_ret _ _ s
  · exact .of_retFail s

theorem execEffect_of_trampValidate {f : List Byte} {s t : State} (h : execTrampValidate f s = .next t) :
    ExecEffect s t := by
  unfold execTrampValidate at h
  split at h <;> cases h
  · exact .of_ret _ _ s
  · exact .of_retFail s

/-! Every instruction, every word. -/

/-- What an instruction can do to the parameters, the time, the pending stimuli, the protocol and the engine slot. -/
theorem exec_effect {i : Instr} {s t : State} (h : exec i s = .next t) : ExecEffect s t := by
  cases i with
  | init present => exact execEffect_of_init h
  | poll rx => exact execEffect_of_poll h
  | isReady => exact execEffect_of_isReady h
  | setFreq mhz => exact execEffect_of_setFreq h
  | setPower mw => exact execEffect_of_setPower h
  | setPit enable => exact execEffect_of_setPit h
  | setBandCh band channel => exact execEffect_of_setBandCh h
  | protocolInUse => cases h; exact .of_ret _ _ s
  | switchProtocol sel => cases h; exact ⟨rfl, rfl, rfl, .discard rfl⟩
  | bandChToFreq band channel => cases h; exact .of_ret _ _ s
  | crc8 m => cases h; exact .of_ret _ _ s
  | trampChecksum f => exact execEffect_of_trampChecksum h
  | regRead id => exact execEffect_of_regRead h
  | saValidate m => exact execEffect_of_saValidate h
  | trampValidate f => exact execEffect_of_trampValidate h
  | saGetSettings => exact execEffect_of_buildSa h
  | saSetPower pw => exact execEffect_of_buildSa h
  | saSetChannel idx => exact execEffect_of_buildSa h
  | saSetFrequency v => exact execEffect_of_buildSa h
  | saSetMode m => exact execEffect_of_buildSa h
  | saReplySettingsV1 p => exact execEffect_of_saDispatch h
  | saReplySettingsV2 p => exact execEffect_of_saDispatch h
  | saReplySettingsV21 p => exact execEffect_of_saDispatch h
  | saReplySetPower p => exact execEffect_of_saDispatch h
  | saReplySetChannel p => exact execEffect_of_saDispatch h
  | saReplySetFrequency p => exact execEffect_of_saDispatch h
  | saReplySetMode p => exact execEffect_of_saDispatch h
  | saReplyOther code p => exact execEffect_of_saDispatch h
  | trResetQuery => exact execEffect_of_buildTr h
  | trStatusQuery => exact execEffect_of_buildTr h
  | trTempQuery => exact execEffect_of_buildTr h
  | trSetFrequency mhz => exact execEffect_of_buildTr h
  | trSetPower mw => exact execEffect_of_buildTr h
  | trSetActive pitOn => exact execEffect_of_buildTr h
  | trReplyReset mn mx mp => exact execEffect_of_trReply (fun _ => .replyReset mn mx mp) h
  | trReplyStatus freq power ctrl pit act =>
    exact execEffect_of_trReply (fun _ => .replyStatus freq power ctrl pit act) h
  | trReplyTemp temp => exact execEffect_of_trReply (fun _ => .replyTemp temp) h

/-- A word that is no instruction has an effect of the same kind (30_encoding.md R72, R79, R84). -/
theorem rejectWord_effect {x : InWord} {s t : State} (h : rejectWord x s = .next t) : ExecEffect s t := by
  cases x with
  | hostOp op a b list => cases h; exact .of_retFail s
  | saRequest f => exact execEffect_of_buildSa h
  | saReply f => exact execEffect_of_onSa (fun _ _ => .receive) h
  | trRequest f => exact execEffect_of_buildTr h
  | trReply f => exact execEffect_of_onTr (fun _ _ => .receive) h

/-- A step with a stimulus pending takes it and then has such an effect. -/
theorem step_effect_of_input {s t : State} {x : Stimulus} {rest : List Stimulus} (hin : s.input = x :: rest)
    (h : step s = .next t) : ExecEffect (takeStimulus x.now rest s) t := by
  simp only [step, fetch, hin] at h
  cases hd : decode s.cfg x.word with
  | ok i => simp only [hd] at h; exact exec_effect h
  | error r => simp only [hd] at h; exact rejectWord_effect h

/-- With none pending nothing happens (46_host_ops.md R154). -/
theorem step_of_no_input {s : State} (hin : s.input = []) : step s = .next s := by
  simp only [step, fetch, hin]

end Sys2Proof.Machine
end

section
/-! PROOFS. Every rule of the two engines keeps the engine's invariant, and so every step keeps the invariant of the
state. -/

namespace Sys2Proof.Machine

/-! The parts of the engines' invariants that most changes leave trivial. -/

theorem outstandingWf_of_none {e : SaEngine} (h : e.outstanding = none) : e.OutstandingWf := fun o ho => by
  rw [h] at ho
  cases ho

theorem stampWf_none (c : Config) : StampWf c none := nofun

theorem stampWf_some {c : Config} {now : Nat} (h : now < 2 ^ c.timeWidth) : StampWf c (some now) := by
  rintro v ⟨⟩
  exact h

/-! SmartAudio: queue and completion. -/

/-- An enqueue keeps the outstanding command at the front (10_state.md R33; 43_sa_engine.md R119). -/
theorem outstandingWf_push {c : Config} {e : SaEngine} {q : SaQueue} {f : List Byte} {id : CmdId} (hq : e.q.Wf c)
    (ho : e.OutstandingWf) (h : queuePush f id e.q = .ok q) : SaEngine.OutstandingWf { e with q := q } := by
  obtain ⟨hl, -, hc, -⟩ := hq
  intro o hout
  obtain ⟨hfront, htx⟩ := ho o hout
  obtain ⟨x, hx, hid⟩ := Option.map_eq_some_iff.1 hfront
  exact ⟨by rw [queueEntries_head?_push hl hc hx h, Option.map_some, hid], htx⟩

theorem saEngine_wf_push {c : Config} {e : SaEngine} {q : SaQueue} {f : List Byte} {id : CmdId} (he : e.Wf c)
    (hv : slotValid c ⟨id, f⟩ = true) (h : queuePush f id e.q = .ok q) : SaEngine.Wf c { e with q := q } := by
  obtain ⟨hq, hrx, ho, hw, hver⟩ := he
  exact ⟨queuePush_wf hq hv h, hrx, outstandingWf_push hq ho h, hw, hver⟩

theorem saEngine_wf_complete {c : Config} {r : Byte} {e e' : SaEngine} (he : e.Wf c) (h : saComplete r e = .ok e') :
    e'.Wf c := by
  rcases saComplete_ok h with ⟨-, rfl⟩ | ⟨o, -, -, -, rfl⟩
  · exact he
  · obtain ⟨hq, hrx, -, hw, hver⟩ := he
    exact ⟨queuePop_wf hq, hrx, outstandingWf_of_none rfl, hw, hver⟩

theorem saEngine_wf_dispatch {c : Config} {r : Byte} {p : List Byte} {e e' : SaEngine} (he : e.Wf c)
    (h : saDispatch c r p e = .ok e') : e'.Wf c := by
  obtain ⟨v, ch, pw, m, f, pf, heq, hv⟩ := saRespond_eq c r p e
  rw [saDispatch, heq] at h
  obtain ⟨hq, hrx, ho, hw, hver⟩ := he
  have hver' : e.phase = .waitPitFrequency ∨ e.phase = .done → v ≠ .unknown := fun hp =>
    hv.elim (fun h => h ▸ hver hp) id
  exact saEngine_wf_complete (e := { e with
    version := v, channel := ch, power := pw, mode := m, freq := f, pitFreq := pf }) ⟨hq, hrx, ho, hw, hver'⟩ h

/-! SmartAudio: the receiver. -/

/-- Receive registers outside `WaitData` and `WaitCrc` only need their ranges (R29). -/
theorem saRxWf_of_header {c : Config} {e : SaEngine} (h : e.RxWf c) (rx : SaRx) (cmd : Byte) (hd : rx ≠ .waitData)
    (hc : rx ≠ .waitCrc) : SaEngine.RxWf c { e with rx := rx, rxCmd := cmd } := by
  obtain ⟨hlen, hle, hmax, -, -⟩ := h
  exact ⟨hlen, hle, hmax, fun h => absurd h hd, fun h => absurd h hc⟩

theorem saRxPreamble1_wf {c : Config} {d : Byte} {e : SaEngine} (he : e.Wf c) : (saRxPreamble1 c d e).Wf c := by
  obtain ⟨hq, hrx, ho, ⟨ht, hpre, hlen, hcrc⟩, hver⟩ := he
  unfold saRxPreamble1
  split
  · exact ⟨hq, saRxWf_of_header hrx _ e.rxCmd (by simp) (by simp), ho, ⟨ht, hpre, hlen, hcrc⟩, hver⟩
  · exact ⟨hq, hrx, ho, ⟨ht, count_lt c _, hlen, hcrc⟩, hver⟩

theorem saRxPreamble2_wf {c : Config} {d : Byte} {e : SaEngine} (he : e.Wf c) : (saRxPreamble2 c d e).Wf c := by
  obtain ⟨hq, hrx, ho, ⟨ht, hpre, hlen, hcrc⟩, hver⟩ := he
  unfold saRxPreamble2
  split
  · exact ⟨hq, saRxWf_of_header hrx _ e.rxCmd (by simp) (by simp), ho, ⟨ht, hpre, hlen, hcrc⟩, hver⟩
  · exact ⟨hq, saRxWf_of_header hrx _ e.rxCmd (by simp) (by simp), ho, ⟨ht, count_lt c _, hlen, hcrc⟩, hver⟩

theorem saRxCommand_wf {c : Config} {d : Byte} {e : SaEngine} (he : e.Wf c) : (saRxCommand d e).Wf c := by
  obtain ⟨hq, hrx, ho, hw, hver⟩ := he
  exact ⟨hq, saRxWf_of_header hrx _ d (by simp) (by simp), ho, hw, hver⟩

/-- An accepted length starts the payload, or awaits the CRC of an empty one (42_sa_frames.md R109). -/
theorem saRxLength_wf {c : Config} {d : Byte} {e : SaEngine} (he : e.Wf c) : (saRxLength c d e).Wf c := by
  obtain ⟨hq, hrx, ho, ⟨ht, hpre, hlen, hcrc⟩, hver⟩ := he
  unfold saRxLength
  split
  · exact ⟨hq, saRxWf_of_header hrx _ e.rxCmd (by simp) (by simp), ho, ⟨ht, hpre, count_lt c _, hcrc⟩, hver⟩
  · rename_i hmax
    refine ⟨hq, ⟨hrx.1, by simp, by simpa using hmax, ?_, ?_⟩, ho, ⟨ht, hpre, hlen, hcrc⟩, hver⟩
    · intro hdata
      have hd : d ≠ 0 := by rintro rfl; simp at hdata
      have : d.toNat ≠ 0 := fun h0 => hd (BitVec.eq_of_toNat_eq h0)
      simpa using Nat.pos_of_ne_zero this
    · intro hcrc
      have hd : d = 0 := by simpa using hcrc
      exact hd.symm

/-- A payload byte counts up to the length, where the CRC is awaited (R110). -/
theorem saRxPayload_wf {c : Config} {d : Byte} {e e' : SaEngine} (he : e.Wf c) (hs : e.rx = .waitData)
    (h : saRxPayload d e = .ok e') : e'.Wf c := by
  obtain ⟨hq, ⟨hlen, -, hmax, hdata, -⟩, ho, hw, hver⟩ := he
  obtain ⟨-, rfl⟩ := saRxPayload_ok h
  have hlt := hdata hs
  have hsucc : (e.rxCount + 1).toNat = e.rxCount.toNat + 1 := by
    have := e.rxLen.isLt
    rw [BitVec.toNat_add]
    exact Nat.mod_eq_of_lt (by simp; omega)
  refine ⟨hq, ⟨by simpa using hlen, by simp only [hsucc]; omega, hmax, ?_, ?_⟩, ho, hw, hver⟩
  · intro hrx
    have hn : e.rxCount + 1 ≠ e.rxLen := fun heq => by simp only [if_pos heq, reduceCtorEq] at hrx
    have hne : (e.rxCount + 1).toNat ≠ e.rxLen.toNat := fun heq => hn (BitVec.eq_of_toNat_eq heq)
    simp only [hsucc] at hne ⊢
    omega
  · intro hrx
    by_cases heq : e.rxCount + 1 = e.rxLen
    · exact heq
    · simp only [if_neg heq, hs, reduceCtorEq] at hrx

theorem saRxCrc_wf {c : Config} {d : Byte} {e e' : SaEngine} (he : e.Wf c) (h : saRxCrc c d e = .ok e') : e'.Wf c := by
  obtain ⟨hq, hrx, ho, ⟨ht, hpre, hlen, hcrc⟩, hver⟩ := he
  have hrx' := saRxWf_of_header hrx .waitPreamble1 e.rxCmd (by simp) (by simp)
  obtain ⟨-, ⟨-, hd⟩ | ⟨-, rfl⟩⟩ := saRxCrc_ok h
  · exact saEngine_wf_dispatch (e := { e with rx := .waitPreamble1 })
      ⟨hq, hrx', ho, ⟨ht, hpre, hlen, hcrc⟩, hver⟩ hd
  · exact ⟨hq, hrx', ho, ⟨ht, hpre, hlen, count_lt c _⟩, hver⟩

theorem saRxByte_wf {c : Config} {d : Byte} {e e' : SaEngine} (he : e.Wf c) (h : saRxByte c d e = .ok e') :
    e'.Wf c := by
  unfold saRxByte at h
  split at h
  · cases h; exact saRxPreamble1_wf he
  · cases h; exact saRxPreamble2_wf he
  · cases h; exact saRxCommand_wf he
  · cases h; exact saRxLength_wf he
  · exact saRxPayload_wf he (by assumption) h
  · exact saRxCrc_wf he h

theorem saRxList_wf {c : Config} {ds : List Byte} {e e' : SaEngine} (he : e.Wf c) (h : saRxList c ds e = .ok e') :
    e'.Wf c :=
  saRxList_keeps (P := fun e => e.Wf c) (fun _ _ _ => saRxByte_wf) he h

/-! SmartAudio: the initialization step and the scheduler. -/

/-- A phase that does not claim a known version, or that comes with one, keeps the invariant (43_sa_engine.md R126). -/
theorem saEngine_wf_phase {c : Config} {e : SaEngine} {p : SaPhase} (he : e.Wf c)
    (hp : p = .waitPitFrequency ∨ p = .done → e.version ≠ .unknown) : SaEngine.Wf c { e with phase := p } := by
  obtain ⟨hq, hrx, ho, hw, -⟩ := he
  exact ⟨hq, hrx, ho, hw, hp⟩

theorem saInitStep_wf {c : Config} {e e' : SaEngine} (hc : c.Valid) (he : e.Wf c) (h : saInitStep c e = .ok e') :
    e'.Wf c := by
  obtain ⟨-, -, -, -, hver⟩ := id he
  rcases saInitStep_ok h with ⟨-, q, hq, rfl⟩ | ⟨-, -, rfl⟩ | ⟨-, hv, q, hq, rfl⟩ | ⟨-, hv, rfl⟩ | ⟨hp, -, rfl⟩ |
    ⟨-, -, rfl⟩ | ⟨-, rfl⟩
  · exact saEngine_wf_phase (saEngine_wf_push he (slotValid_saGetSettings hc) hq) (by simp)
  · exact he
  · refine saEngine_wf_phase (saEngine_wf_push he (slotValid_saSetFrequency (.inr rfl) hc) hq) fun _ hu => ?_
    simp only at hu
    simp [hu, versionAtLeast2] at hv
  · exact saEngine_wf_phase he (by simp [hv])
  · exact saEngine_wf_phase he fun _ => hver (.inl hp)
  · exact he
  · exact he

theorem saOutbound_wf {c : Config} {now : Nat} {e e' : SaEngine} {f : Option (List Byte)} (hc : c.Valid)
    (hnow : now < 2 ^ c.timeWidth) (he : e.Wf c) (h : saOutbound c now e = .ok (e', f)) : e'.Wf c := by
  obtain ⟨hq, hrx, ho, ⟨ht, hcnt⟩, hver⟩ := id he
  have hstamp := stampWf_some hnow
  rcases saOutbound_ok h with ⟨-, -, x, hx, rfl, -⟩ | ⟨-, hpos, x, hx, rfl, -⟩ | ⟨-, -, -, -, q, hp, rfl, -⟩ | ⟨rfl, -⟩
  · exact ⟨hq, hrx, fun o hout => ⟨(ho o hout).1, by simp⟩, ⟨hstamp, hcnt⟩, hver⟩
  · refine ⟨hq, hrx, fun o hout => ⟨?_, by simp⟩, ⟨hstamp, hcnt⟩, hver⟩
    obtain ⟨hl, hh, -, -⟩ := hq
    dsimp only at hout ⊢
    rw [queueEntries_head? hl hh, if_pos hpos, hx, Option.map_some, hout]
  · exact saEngine_wf_push he (slotValid_saGetSettings hc) hp
  · exact he

/-- Every change of a SmartAudio engine keeps its invariant. -/
theorem SaMove.wf {c : Config} {now : Nat} {e e' : SaEngine} (hc : c.Valid) (hnow : now < 2 ^ c.timeWidth)
    (he : e.Wf c) (h : SaMove c now e e') : e'.Wf c := by
  cases h with
  | poll h =>
    obtain ⟨e1, e2, h1, h2, h3⟩ := saPoll_eq_ok.1 h
    exact saOutbound_wf hc hnow (saInitStep_wf hc (saRxList_wf he h1) h2) h3
  | enqueue hv h => exact saEngine_wf_push he (hv hc) h
  | reply h => exact saEngine_wf_dispatch he h
  | receive h => exact saRxList_wf he h

theorem freshSa_wf (c : Config) : (freshSa c).Wf c := by
  have hpos := Nat.two_pow_pos c.cntWidth
  refine ⟨freshQueue_wf c, ⟨by simp [freshSa], ?_⟩, outstandingWf_of_none rfl,
    ⟨stampWf_none c, hpos, hpos, hpos⟩, ?_⟩ <;> simp [freshSa]

/-! TRAMP: replies and the receiver. -/

theorem trRespReset_wf {c : Config} {mn mx mp : Half} {e : TrEngine} (he : e.Wf c) : (trRespReset mn mx mp e).Wf c := by
  obtain ⟨hrx, hw, hretry, hready⟩ := he
  unfold trRespReset
  split
  · exact ⟨hrx, hw, hretry, hready⟩
  · refine ⟨hrx, hw, hretry, hready.trans ?_⟩
    by_cases hs : e.state = .offline <;> simp [hs]

theorem trRespStatus_wf {c : Config} {freq power : Half} {ctrl : Byte} {pit : Bool} {act : Half} {e : TrEngine}
    (he : e.Wf c) : (trRespStatus freq power ctrl pit act e).Wf c := by
  obtain ⟨hrx, hw, hretry, hready⟩ := he
  refine ⟨hrx, hw, hretry, ?_⟩
  by_cases hs : e.state = .init <;> simp [trRespStatus, hs, hready]

theorem trRespTemp_wf {c : Config} {t : Half} {e : TrEngine} (he : e.Wf c) : (trRespTemp t e).Wf c := by
  unfold trRespTemp
  split <;> exact he

theorem trDispatch_wf {c : Config} {b : List Byte} {e : TrEngine} (he : e.Wf c) : (trDispatch b e).Wf c := by
  rcases trDispatch_cases b e with ⟨_, _, _, h⟩ | ⟨_, _, _, _, _, h⟩ | ⟨_, h⟩ | h <;> rw [h]
  · exact trRespReset_wf he
  · exact trRespStatus_wf he
  · exact trRespTemp_wf he
  · exact he

/-- A receiver that waits for a header needs its buffer and a count of 0 only (10_state.md R37). -/
theorem trRxWf_waitHeader {e : TrEngine} (hl : e.rxBuf.length = trFrameLen) :
    TrEngine.RxWf { e with rx := .waitHeader, rxCount := 0 } :=
  ⟨hl, fun _ => rfl, fun h => by simp at h, fun h => by simp at h⟩

theorem trValidate_wf {c : Config} {e e' : TrEngine} (hl : e.rxBuf.length = trFrameLen) (hw : e.WidthsWf c)
    (hretry : e.retry ≤ trMaxRetry) (hready : e.ready = decide (e.state ≠ .offline ∧ e.state ≠ .init))
    (h : trValidate c e = .ok e') : e'.Wf c := by
  obtain ⟨hreq, hstatus, hbad⟩ := hw
  rcases trValidate_ok h with ⟨rfl, -⟩ | ⟨rfl, -⟩
  · exact trDispatch_wf ⟨trRxWf_waitHeader hl, ⟨hreq, hstatus, hbad⟩, hretry, hready⟩
  · exact ⟨trRxWf_waitHeader hl, ⟨hreq, hstatus, count_lt c _⟩, hretry, hready⟩

theorem trRxHeader_wf {c : Config} {d : Byte} {e e' : TrEngine} (he : e.Wf c) (h : trRxHeader d e = .ok e') :
    e'.Wf c := by
  rcases trRxHeader_ok h with ⟨-, -, rfl⟩ | ⟨-, rfl⟩
  · obtain ⟨⟨hl, -⟩, hw, hretry, hready⟩ := he
    exact ⟨⟨by simpa using hl, by simp, by simp, by simp⟩, hw, hretry, hready⟩
  · exact he

theorem trRxCode_wf {c : Config} {d : Byte} {e e' : TrEngine} (he : e.Wf c) (h : trRxCode d e = .ok e') :
    e'.Wf c := by
  obtain ⟨⟨hl, -⟩, hw, hretry, hready⟩ := he
  rcases trRxCode_ok h with ⟨hd, hi, rfl⟩ | ⟨-, rfl⟩
  · refine ⟨⟨by simpa using hl, by simp, by simp, fun _ => ⟨le_rfl, by simp [trFrameLen], ?_⟩⟩, hw, hretry, hready⟩
    simpa [List.getD_eq_getElem?_getD, hi] using hd
  · exact ⟨trRxWf_waitHeader hl, hw, hretry, hready⟩

/-- A data byte leaves the code in byte 1 where it is (44_tramp_frames.md R139). -/
theorem trRxData_wf {c : Config} {d : Byte} {e e' : TrEngine} (he : e.Wf c) (hs : e.rx = .accumulateData)
    (h : trRxData c d e = .ok e') : e'.Wf c := by
  obtain ⟨⟨hl, -, -, hacc⟩, hw, hretry, hready⟩ := he
  obtain ⟨hmin, hmax, hcode⟩ := hacc hs
  obtain ⟨-, ⟨hne, rfl⟩ | ⟨-, hv⟩⟩ := trRxData_ok h
  · refine ⟨⟨by simpa using hl, by simp [hs], by simp [hs], fun _ => ⟨?_, ?_, ?_⟩⟩, hw, hretry, hready⟩
    · dsimp only; omega
    · dsimp only; omega
    · have hne1 : e.rxCount ≠ 1 := by omega
      simpa [List.getD_eq_getElem?_getD, List.getElem?_set_ne hne1] using hcode
  · exact trValidate_wf (e := { e with rxBuf := e.rxBuf.set e.rxCount d, rxCount := e.rxCount + 1 })
      (by simpa using hl) hw hretry hready hv

theorem trRxByte_wf {c : Config} {d : Byte} {e e' : TrEngine} (he : e.Wf c) (h : trRxByte c d e = .ok e') :
    e'.Wf c := by
  unfold trRxByte at h
  split at h
  · exact trRxHeader_wf he h
  · exact trRxCode_wf he h
  · exact trRxData_wf he (by assumption) h

theorem trRxList_wf {c : Config} {ds : List Byte} {e e' : TrEngine} (he : e.Wf c) (h : trRxList c ds e = .ok e') :
    e'.Wf c :=
  trRxList_keeps (P := fun e => e.Wf c) (fun _ _ _ => trRxByte_wf) he h

/-! TRAMP: the step and the setters. -/

section Stamps
variable {c : Config} {now : Nat} {e : TrEngine} (hnow : now < 2 ^ c.timeWidth) (he : e.Wf c)
include hnow he

/-- A frame that leaves stamps `lastReq` (45_tramp_engine.md R145). -/
theorem trEngine_wf_lastReq : TrEngine.Wf c { e with lastReq := some now } := by
  obtain ⟨hrx, ⟨-, hstatus, hbad⟩, hretry, hready⟩ := he
  exact ⟨hrx, ⟨stampWf_some hnow, hstatus, hbad⟩, hretry, hready⟩

/-- A status query stamps `lastStatus` as well (R146). -/
theorem trEngine_wf_stamps : TrEngine.Wf c { e with lastStatus := some now, lastReq := some now } := by
  obtain ⟨hrx, ⟨-, -, hbad⟩, hretry, hready⟩ := he
  exact ⟨hrx, ⟨stampWf_some hnow, stampWf_some hnow, hbad⟩, hretry, hready⟩

end Stamps

/-- Moving between states after `Init` leaves `ready` true (R38). -/
theorem trEngine_wf_online {c : Config} {e : TrEngine} {st : TrState} {r : Nat} (he : e.Wf c) (hr : r ≤ trMaxRetry)
    (hs : e.state ≠ .offline ∧ e.state ≠ .init) (hst : st ≠ .offline ∧ st ≠ .init) :
    TrEngine.Wf c { e with state := st, retry := r } := by
  obtain ⟨hrx, hw, -, hready⟩ := he
  exact ⟨hrx, hw, hr, by simp [hready, hs, hst]⟩

theorem trEngine_wf_retry {c : Config} {e : TrEngine} {r : Nat} (he : e.Wf c) (hr : r ≤ trMaxRetry) :
    TrEngine.Wf c { e with retry := r } := by
  obtain ⟨hrx, hw, -, hready⟩ := he
  exact ⟨hrx, hw, hr, hready⟩

section Step
variable {c : Config} {now : Nat} {e : TrEngine} (hnow : now < 2 ^ c.timeWidth)
include hnow

theorem trMonitorPoll_wf (he : e.Wf c) (hs : e.state ≠ .offline ∧ e.state ≠ .init) :
    (trMonitorPoll c now e).1.Wf c := by
  obtain ⟨-, -, hretry, -⟩ := id he
  rcases trMonitorPoll_cases c now e with ⟨-, h⟩ | ⟨-, h⟩ <;> rw [h]
  · exact trEngine_wf_stamps hnow (trEngine_wf_online (st := .monTemp) he hretry hs (by simp))
  · exact he

theorem trMonitor_wf (he : e.Wf c) (hs : e.state ≠ .offline ∧ e.state ≠ .init) : (trMonitor c now e).1.Wf c := by
  obtain ⟨-, -, hretry, -⟩ := id he
  rcases trMonitor_cases c now e with ⟨f, -, -, h⟩ | ⟨-, -, h⟩ | ⟨-, h⟩ <;> rw [h]
  · exact trEngine_wf_lastReq hnow
      (trEngine_wf_online (st := .config) he ((Nat.sub_le e.retry 1).trans hretry) hs (by simp))
  · exact trMonitorPoll_wf hnow (trEngine_wf_retry he le_rfl) hs
  · exact trMonitorPoll_wf hnow he hs

theorem trStep_wf (he : e.Wf c) : (trStep c now e).1.Wf c := by
  obtain ⟨-, -, hretry, -⟩ := id he
  rcases trStep_cases c now e with ⟨-, -, h⟩ | ⟨-, -, h⟩ | ⟨hs, -, h⟩ | ⟨hs, -, h⟩ | ⟨hs, -, h⟩ | h <;> rw [h]
  · exact trEngine_wf_lastReq hnow he
  · exact trEngine_wf_stamps hnow he
  · exact trMonitor_wf hnow he (by simp [hs])
  · exact trEngine_wf_lastReq hnow
      (trEngine_wf_online (st := .monFreqPwrPit) he hretry (by simp [hs]) (by simp))
  · exact trEngine_wf_stamps hnow
      (trEngine_wf_online (st := .monFreqPwrPit) he hretry (by simp [hs]) (by simp))
  · exact he

theorem trWrite_wf {f : List Byte} (he : e.Wf c) : (trWrite c now f e).1.Wf c := by
  rcases trWrite_cases c now f e with ⟨-, h⟩ | ⟨-, h⟩ <;> rw [h]
  · exact he
  · exact trEngine_wf_lastReq hnow he

/-- Every change of a TRAMP engine keeps its invariant. -/
theorem TrMove.wf {e' : TrEngine} (he : e.Wf c) (h : TrMove c now e e') : e'.Wf c := by
  have hfull := trEngine_wf_retry he (le_refl trMaxRetry)
  cases h with
  | poll h =>
    obtain ⟨e1, h1, heq⟩ := trPoll_eq_ok.1 h
    obtain ⟨rfl, -⟩ := Prod.ext_iff.1 heq
    exact trStep_wf hnow (trRxList_wf he h1)
  | @setFrequency v _ f h =>
    unfold trSetFrequency at h
    split at h
    · obtain ⟨rfl, -⟩ := Prod.ext_iff.1 (Option.some.inj h)
      exact trWrite_wf (e := { e with desFreq := v, retry := trMaxRetry }) hnow hfull
    · cases h
  | @setPower mw _ f h =>
    obtain ⟨rfl, -⟩ := Prod.ext_iff.1 (Option.some.inj h)
    exact trWrite_wf (e := { e with desPower := mw, retry := trMaxRetry }) hnow hfull
  | @setPitMode on _ f h =>
    cases h
    exact trEngine_wf_lastReq (e := { e with desPit := desPitOf on, retry := trMaxRetry }) hnow hfull
  | replyReset mn mx mp => exact trRespReset_wf he
  | replyStatus freq power ctrl pit act => exact trRespStatus_wf he
  | replyTemp temp => exact trRespTemp_wf he
  | receive h => exact trRxList_wf he h

end Step

theorem freshTr_wf (c : Config) : freshTr.Wf c := by
  refine ⟨⟨by simp [freshTr], ?_⟩, ⟨stampWf_none c, stampWf_none c, Nat.two_pow_pos _⟩, ?_⟩ <;> simp [freshTr]

/-! The state. -/

theorem freshEngine_wf (c : Config) (p : Proto) : EngineWf c p (freshEngine c p) := by
  cases p
  · exact ⟨rfl, freshSa_wf c⟩
  · exact ⟨rfl, freshTr_wf c⟩

/-- Whatever happens to the slot keeps the engine's invariant and its agreement with the selected protocol. -/
theorem SlotEffect.engineWf {s t : State} (hc : s.cfg.Valid) (hnow : s.now < 2 ^ s.cfg.timeWidth)
    (hw : EngineWf s.cfg s.proto s.engine) (h : SlotEffect s t) : EngineWf s.cfg t.proto t.engine := by
  cases h with
  | keep hp he => rwa [hp, he]
  | discard he => rw [he]; trivial
  | create hp he => rw [hp, he]; exact freshEngine_wf _ _
  | sa hp hs ht hm =>
    rw [hs] at hw
    rw [hp, ht]
    exact ⟨hw.1, hm.wf hc hnow hw.2⟩
  | tramp hp hs ht hm =>
    rw [hs] at hw
    rw [hp, ht]
    exact ⟨hw.1, hm.wf hnow hw.2⟩

theorem ExecEffect.inv {s t : State} (h : ExecEffect s t) (hs : s.Inv) : t.Inv := by
  obtain ⟨hc, hnow, hw⟩ := hs
  refine ⟨by rwa [h.cfg], by rwa [h.now, h.cfg], ?_⟩
  rw [h.cfg]
  exact h.slot.engineWf hc hnow hw

/-- Taking a stimulus samples `TIME_WIDTH` bits of its time (10_state.md R23). -/
theorem takeStimulus_inv {now : Nat} {rest : List Stimulus} {s : State} (hs : s.Inv) : (takeStimulus now rest s).Inv :=
  ⟨hs.1, Nat.mod_lt _ (Nat.two_pow_pos _), hs.2.2⟩

/-- Settles O55: a step is idle or takes its stimulus, and then every change of the engine slot keeps the invariant. -/
theorem stepKeepsRanges : Obligations.StepKeepsRanges := by
  intro s t hs h
  cases hin : s.input with
  | nil =>
    rw [step_of_no_input hin] at h
    cases h
    exact hs
  | cons x rest => exact (step_effect_of_input hin h).inv (takeStimulus_inv hs)

end Sys2Proof.Machine
end

section
/-! PROOFS. A time stamp that a step changes takes the step's time, and what this says of a run in which the host keeps
its duties (70_reset_and_hazards.md R183, R191). -/

namespace Sys2Proof.Machine

/-! Stamps in the engines. -/

/-- The stamp `b` after a change at the time `now` is the stamp `a` from before or the time itself. -/
def StampKept (now : Nat) (a b : Option Nat) : Prop := b = a ∨ b = some now

theorem StampKept.refl (now : Nat) (a : Option Nat) : StampKept now a a := .inl rfl

theorem StampKept.of_eq {now : Nat} {a b : Option Nat} (h : b = a) : StampKept now a b := .inl h

theorem StampKept.stamped (now : Nat) (a : Option Nat) : StampKept now a (some now) := .inr rfl

theorem saDispatch_lastTx {c : Config} {r : Byte} {p : List Byte} {e e' : SaEngine}
    (h : saDispatch c r p e = .ok e') : e'.lastTx = e.lastTx := by
  obtain ⟨v, ch, pw, m, f, pf, heq, -⟩ := saRespond_eq c r p e
  rw [saDispatch, heq] at h
  rcases saComplete_ok h with ⟨-, rfl⟩ | ⟨o, -, -, -, rfl⟩ <;> rfl

/-- The receiver stamps nothing (42_sa_frames.md R106 to R111). -/
theorem saRxByte_lastTx {c : Config} {d : Byte} {e e' : SaEngine} (h : saRxByte c d e = .ok e') :
    e'.lastTx = e.lastTx := by
  unfold saRxByte at h
  split at h
  · cases h; unfold saRxPreamble1; split <;> rfl
  · cases h; unfold saRxPreamble2; split <;> rfl
  · cases h; rfl
  · cases h; unfold saRxLength; split <;> rfl
  · obtain ⟨-, rfl⟩ := saRxPayload_ok h; rfl
  · obtain ⟨-, ⟨-, hd⟩ | ⟨-, rfl⟩⟩ := saRxCrc_ok h
    · exact saDispatch_lastTx (e := { e with rx := .waitPreamble1 }) hd
    · rfl

theorem saRxList_lastTx {c : Config} {ds : List Byte} {e e' : SaEngine} (h : saRxList c ds e = .ok e') :
    e'.lastTx = e.lastTx :=
  saRxList_keeps (P := fun x => x.lastTx = e.lastTx) (fun _ _ _ hp hx => (saRxByte_lastTx hx).trans hp) rfl h

theorem saInitStep_lastTx {c : Config} {e e' : SaEngine} (h : saInitStep c e = .ok e') : e'.lastTx = e.lastTx := by
  rcases saInitStep_ok h with ⟨-, _, -, rfl⟩ | ⟨-, -, rfl⟩ | ⟨-, -, _, -, rfl⟩ | ⟨-, -, rfl⟩ | ⟨-, -, rfl⟩ |
    ⟨-, -, rfl⟩ | ⟨-, rfl⟩ <;> rfl

theorem saOutbound_lastTx {c : Config} {now : Nat} {e e' : SaEngine} {f : Option (List Byte)}
    (h : saOutbound c now e = .ok (e', f)) : StampKept now e.lastTx e'.lastTx := by
  rcases saOutbound_ok h with ⟨-, -, _, -, rfl, -⟩ | ⟨-, -, _, -, rfl, -⟩ | ⟨-, -, -, -, _, -, rfl, -⟩ | ⟨rfl, -⟩
  · exact .stamped now _
  · exact .stamped now _
  · exact .refl now _
  · exact .refl now _

theorem SaMove.lastTx {c : Config} {now : Nat} {e e' : SaEngine} (h : SaMove c now e e') :
    StampKept now e.lastTx e'.lastTx := by
  cases h with
  | poll h =>
    obtain ⟨e1, e2, h1, h2, h3⟩ := saPoll_eq_ok.1 h
    rw [← saRxList_lastTx h1, ← saInitStep_lastTx h2]
    exact saOutbound_lastTx h3
  | enqueue hv h => exact .refl now _
  | reply h => exact .of_eq (saDispatch_lastTx h)
  | receive h => exact .of_eq (saRxList_lastTx h)

/-- Both stamps of a TRAMP engine, kept or stamped. -/
def TrStampsKept (now : Nat) (e e' : TrEngine) : Prop :=
  StampKept now e.lastReq e'.lastReq ∧ StampKept now e.lastStatus e'.lastStatus

/-- The same stamps in both engines. -/
def SameTrStamps (e e' : TrEngine) : Prop := e'.lastReq = e.lastReq ∧ e'.lastStatus = e.lastStatus

theorem SameTrStamps.kept {now : Nat} {e e' : TrEngine} (h : SameTrStamps e e') : TrStampsKept now e e' :=
  ⟨.of_eq h.1, .of_eq h.2⟩

theorem SameTrStamps.trans {a b d : TrEngine} (h : SameTrStamps a b) (h' : SameTrStamps b d) : SameTrStamps a d :=
  ⟨h'.1.trans h.1, h'.2.trans h.2⟩

theorem trRespReset_stamps (mn mx mp : Half) (e : TrEngine) : SameTrStamps e (trRespReset mn mx mp e) := by
  unfold trRespReset; split <;> exact ⟨rfl, rfl⟩

theorem trRespTemp_stamps (t : Half) (e : TrEngine) : SameTrStamps e (trRespTemp t e) := by
  unfold trRespTemp; split <;> exact ⟨rfl, rfl⟩

/-- The receiver stamps nothing (44_tramp_frames.md R137 to R140). -/
theorem trRxByte_stamps {c : Config} {d : Byte} {e e' : TrEngine} (h : trRxByte c d e = .ok e') : SameTrStamps e e' :=
  trRxByte_relates (R := SameTrStamps) (fun _ _ _ _ _ => ⟨rfl, rfl⟩) (fun e mn mx mp => trRespReset_stamps mn mx mp e)
    (fun _ _ _ _ _ _ => ⟨rfl, rfl⟩) (fun e t => trRespTemp_stamps t e) (fun _ _ _ => .trans) h

theorem trRxList_stamps {c : Config} {ds : List Byte} {e e' : TrEngine} (h : trRxList c ds e = .ok e') :
    SameTrStamps e e' :=
  trRxList_keeps (P := SameTrStamps e) (fun _ _ _ hp hx => hp.trans (trRxByte_stamps hx)) ⟨rfl, rfl⟩ h

theorem trMonitorPoll_stamps (c : Config) (now : Nat) (e : TrEngine) : TrStampsKept now e (trMonitorPoll c now e).1 := by
  rcases trMonitorPoll_cases c now e with ⟨-, h⟩ | ⟨-, h⟩ <;> rw [h]
  · exact ⟨.stamped now _, .stamped now _⟩
  · exact ⟨.refl now _, .refl now _⟩

theorem trMonitor_stamps (c : Config) (now : Nat) (e : TrEngine) : TrStampsKept now e (trMonitor c now e).1 := by
  rcases trMonitor_cases c now e with ⟨_, -, -, h⟩ | ⟨-, -, h⟩ | ⟨-, h⟩ <;> rw [h]
  · exact ⟨.stamped now _, .refl now _⟩
  · exact trMonitorPoll_stamps c now { e with retry := trMaxRetry }
  · exact trMonitorPoll_stamps c now e

theorem trStep_stamps (c : Config) (now : Nat) (e : TrEngine) : TrStampsKept now e (trStep c now e).1 := by
  rcases trStep_cases c now e with ⟨-, -, h⟩ | ⟨-, -, h⟩ | ⟨-, -, h⟩ | ⟨-, -, h⟩ | ⟨-, -, h⟩ | h <;> rw [h]
  · exact ⟨.stamped now _, .refl now _⟩
  · exact ⟨.stamped now _, .stamped now _⟩
  · exact trMonitor_stamps c now e
  · exact ⟨.stamped now _, .refl now _⟩
  · exact ⟨.stamped now _, .stamped now _⟩
  · exact ⟨.refl now _, .refl now _⟩

theorem trWrite_stamps (c : Config) (now : Nat) (f : List Byte) (e : TrEngine) :
    TrStampsKept now e (trWrite c now f e).1 := by
  rcases trWrite_cases c now f e with ⟨-, h⟩ | ⟨-, h⟩ <;> rw [h]
  · exact ⟨.refl now _, .refl now _⟩
  · exact ⟨.stamped now _, .refl now _⟩

theorem TrMove.stamps {c : Config} {now : Nat} {e e' : TrEngine} (h : TrMove c now e e') : TrStampsKept now e e' := by
  cases h with
  | poll h =>
    obtain ⟨e1, h1, heq⟩ := trPoll_eq_ok.1 h
    obtain ⟨rfl, -⟩ := Prod.ext_iff.1 heq
    obtain ⟨hreq, hstatus⟩ := trRxList_stamps h1
    rw [TrStampsKept, ← hreq, ← hstatus]
    exact trStep_stamps c now e1
  | @setFrequency v _ f h =>
    unfold trSetFrequency at h
    split at h
    · obtain ⟨rfl, -⟩ := Prod.ext_iff.1 (Option.some.inj h)
      exact trWrite_stamps c now _ { e with desFreq := v, retry := trMaxRetry }
    · cases h
  | @setPower mw _ f h =>
    obtain ⟨rfl, -⟩ := Prod.ext_iff.1 (Option.some.inj h)
    exact trWrite_stamps c now _ { e with desPower := mw, retry := trMaxRetry }
  | setPitMode h =>
    obtain ⟨rfl, -⟩ := Prod.ext_iff.1 (Option.some.inj h)
    exact ⟨.stamped now _, .refl now _⟩
  | replyReset mn mx mp => exact (trRespReset_stamps mn mx mp e).kept
  | replyStatus freq power ctrl pit act => exact ⟨.refl now _, .refl now _⟩
  | replyTemp temp => exact (trRespTemp_stamps temp e).kept
  | receive h => exact (trRxList_stamps h).kept

/-! Stamps in the slot. -/

/-- A fresh engine has stamped nothing yet (10_state.md R49, R50). -/
theorem engineStamps_freshEngine (c : Config) (p : Proto) (k v : Nat) :
    (engineStamps (freshEngine c p))[k]? ≠ some (some v) := by
  cases p
  · rcases k with _ | k <;> simp [freshEngine, engineStamps, freshSa]
  · rcases k with _ | _ | k <;> simp [freshEngine, engineStamps, freshTr]

/-- A stamp that stands after an instruction stood there before it or is its time. -/
theorem ExecEffect.stamp {s t : State} {k v : Nat} (h : ExecEffect s t)
    (hv : (engineStamps t.engine)[k]? = some (some v)) :
    (engineStamps s.engine)[k]? = some (some v) ∨ v = s.now := by
  have hstamp : ∀ {a b : Option Nat}, StampKept s.now a b → b = some v → a = some v ∨ v = s.now := by
    rintro a b (rfl | rfl) hb
    · exact .inl hb
    · exact .inr (Option.some.inj hb).symm
  cases h.slot with
  | keep hp he => exact .inl (he ▸ hv)
  | discard he => simp [he, engineStamps] at hv
  | create hp he => exact absurd (he ▸ hv) (engineStamps_freshEngine _ _ k v)
  | sa hp hs ht hm =>
    rw [ht] at hv
    rw [hs]
    rcases k with _ | k
    · simpa [engineStamps] using hstamp hm.lastTx (by simpa [engineStamps] using hv)
    · simp [engineStamps] at hv
  | tramp hp hs ht hm =>
    rw [ht] at hv
    rw [hs]
    obtain ⟨hreq, hstatus⟩ := hm.stamps
    rcases k with _ | _ | k
    · simpa [engineStamps] using hstamp hreq (by simpa [engineStamps] using hv)
    · simpa [engineStamps] using hstamp hstatus (by simpa [engineStamps] using hv)
    · simp [engineStamps] at hv

/-! Runs of the host. -/

/-- A run is a step and the run after it, or nothing when the step does not answer. -/
theorem hostTrace_cons_eq {s : State} {x : HostEvent} {r : List HostEvent} {o : HostOp} {tr : List HostOp}
    (h : hostTrace s (x :: r) = o :: tr) :
    ∃ t, step s = .next t ∧ o = ⟨s, x, t⟩ ∧ tr = hostTrace t r := by
  unfold hostTrace at h
  split at h
  · obtain ⟨rfl, rfl⟩ := List.cons.inj h
    exact ⟨_, by assumption, rfl, rfl⟩
  · cases h

/-- Each operation but the first starts where the one before it ended. -/
theorem hostTrace_adjacent {o p : HostOp} {post : List HostOp} : ∀ {pre : List HostOp} {s : State} {l : List HostEvent},
    hostTrace s l = pre ++ o :: p :: post → p.before = o.after
  | _, _, [], h => by simp [hostTrace] at h
  | [], s, x :: r, h => by
    obtain ⟨t, -, rfl, hr⟩ := hostTrace_cons_eq h
    cases r with
    | nil => cases hr
    | cons y r' =>
      obtain ⟨u, -, rfl, -⟩ := hostTrace_cons_eq hr.symm
      rfl
  | q :: pre, s, x :: r, h => by
    obtain ⟨t, -, -, hr⟩ := hostTrace_cons_eq h
    exact hostTrace_adjacent hr.symm

/-- The first operation starts in the run's first state. -/
theorem hostTrace_head {s : State} {p : HostOp} {post : List HostOp} {l : List HostEvent}
    (h : hostTrace s l = p :: post) : p.before = s := by
  cases l with
  | nil => cases h
  | cons x r =>
    obtain ⟨t, -, rfl, -⟩ := hostTrace_cons_eq h
    rfl

/-- The events of a run are the first of those that the host presents. -/
theorem hostTrace_events (s : State) (l : List HostEvent) : (hostTrace s l).map (·.event) <+: l := by
  induction l generalizing s with
  | nil => exact List.prefix_rfl
  | cons x r ih =>
    unfold hostTrace
    split
    · exact (List.prefix_cons_inj x).2 (ih _)
    · exact List.nil_prefix

/-- When the host's words are what is pending, each operation of the run takes its own word and has an instruction's
effect; the parameters are the same throughout. -/
theorem hostTrace_effect {s : State} {l : List HostEvent} (hin : s.input = l.map (·.stim)) {o : HostOp}
    (ho : o ∈ hostTrace s l) :
    o.before.cfg = s.cfg ∧ ∃ rest, ExecEffect (takeStimulus o.event.stim.now rest o.before) o.after := by
  induction l generalizing s with
  | nil => cases ho
  | cons x r ih =>
    unfold hostTrace at ho
    split at ho
    · rename_i t hstep
      have heff := step_effect_of_input hin hstep
      rcases List.mem_cons.1 ho with rfl | ho
      · exact ⟨rfl, _, heff⟩
      · obtain ⟨hcfg, hrest⟩ := ih heff.input ho
        exact ⟨hcfg.trans heff.cfg, hrest⟩
    · cases ho

/-- A stamp that stands before an operation of a run, and did not at its beginning, comes from an earlier operation, after
which none has changed it: the last one that changed it. -/
theorem hostTrace_stamp_origin {s : State} {l : List HostEvent} {k v : Nat}
    (hs : (engineStamps s.engine)[k]? ≠ some (some v)) (pre : List HostOp) :
    ∀ {p : HostOp} {post : List HostOp}, hostTrace s l = pre ++ p :: post →
      (engineStamps p.before.engine)[k]? = some (some v) →
      ∃ before o since, pre = before ++ o :: since ∧ o.changesStamp k ∧
        (engineStamps o.after.engine)[k]? = some (some v) ∧ ∀ m ∈ since, ¬ m.changesStamp k := by
  induction pre using List.reverseRecOn with
  | nil =>
    intro p post h hv
    rw [hostTrace_head h] at hv
    exact absurd hv hs
  | append_singleton init o ih =>
    intro p post h hv
    rw [List.append_assoc, List.singleton_append] at h
    rw [hostTrace_adjacent h] at hv
    by_cases hch : o.changesStamp k
    · exact ⟨init, o, [], rfl, hch, hv, fun _ hm => absurd hm List.not_mem_nil⟩
    · have hbefore : (engineStamps o.before.engine)[k]? = some (some v) := (not_not.1 hch).symm.trans hv
      obtain ⟨before, o', since, rfl, hch', hv', hsince⟩ := ih h hbefore
      refine ⟨before, o', since ++ [o], by simp, hch', hv', fun m hm => ?_⟩
      rcases List.mem_append.1 hm with hm | hm
      · exact hsince m hm
      · rwa [List.mem_singleton.1 hm]

/-- An operation that changes a stamp to a value gives it its own time (00_scope.md R15). -/
theorem hostTrace_stamp_value {s : State} {l : List HostEvent} (hin : s.input = l.map (·.stim)) {o : HostOp}
    (ho : o ∈ hostTrace s l) {k v : Nat} (hch : o.changesStamp k)
    (hv : (engineStamps o.after.engine)[k]? = some (some v)) : v = timeInput s.cfg o.event.stim.now := by
  obtain ⟨hcfg, rest, heff⟩ := hostTrace_effect hin ho
  rcases heff.stamp hv with hold | hnow
  · exact absurd (hv.trans hold.symm) hch
  · rw [hnow, ← hcfg]; rfl

/-- After an operation `now` holds the operation's time (10_state.md R23). -/
theorem hostTrace_after_now {s : State} {l : List HostEvent} (hin : s.input = l.map (·.stim)) {o : HostOp}
    (ho : o ∈ hostTrace s l) : o.after.now = timeInput s.cfg o.event.stim.now := by
  obtain ⟨hcfg, rest, heff⟩ := hostTrace_effect hin ho
  rw [heff.now, ← hcfg]; rfl

/-- The elapsed time is the real interval, across wraparound (R191). -/
theorem elapsed_of_mod {c : Config} {a b : Nat} (hle : a ≤ b) (hlt : b - a < 2 ^ c.timeWidth) :
    elapsed c (b % 2 ^ c.timeWidth) (a % 2 ^ c.timeWidth) = b - a :=
  subMod_of_mod hle hlt

/-- In a run that begins with no engine, the last operation that changed a stamp gave it its time, and the clock and
interval duties make the difference modulo `2^TIME_WIDTH` the real one (R183). -/
theorem hostRun_elapsed_real {cadence : Nat} {s : State} {l : List HostEvent} {pre post : List HostOp} {p : HostOp}
    {k v : Nat} (hstart : s.engine = .none) (hduties : HostDuties cadence s l)
    (htrace : hostTrace s l = pre ++ p :: post) (hpoll : p.event.isPoll = true)
    (hv : (engineStamps p.before.engine)[k]? = some (some v)) :
    ∃ before o since, pre = before ++ o :: since ∧ o.changesStamp k ∧
      (engineStamps o.after.engine)[k]? = some (some v) ∧ (∀ m ∈ since, ¬ m.changesStamp k) ∧
      v = o.event.ms % 2 ^ s.cfg.timeWidth ∧ o.event.ms ≤ p.event.ms ∧
      elapsed s.cfg p.after.now v = p.event.ms - o.event.ms := by
  obtain ⟨hin, -⟩ := hduties.oneAtATime
  obtain ⟨hclock, hmono⟩ := hduties.clock
  have hreset : (engineStamps s.engine)[k]? ≠ some (some v) := by simp [hstart, engineStamps]
  obtain ⟨before, o, since, rfl, hch, hvo, hsince⟩ := hostTrace_stamp_origin hreset pre htrace hv
  have hsplit : hostTrace s l = before ++ o :: (since ++ p :: post) := by simpa using htrace
  have ho : o ∈ hostTrace s l := by simp [hsplit]
  have hp : p ∈ hostTrace s l := by simp [hsplit]
  have hevent : ∀ x ∈ hostTrace s l, x.event ∈ l := fun x hx =>
    (hostTrace_events s l).subset (List.mem_map_of_mem hx)
  have hvalue : v = o.event.ms % 2 ^ s.cfg.timeWidth :=
    (hostTrace_stamp_value hin ho hch hvo).trans (hclock _ (hevent o ho))
  have hnow : p.after.now = p.event.ms % 2 ^ s.cfg.timeWidth :=
    (hostTrace_after_now hin hp).trans (hclock _ (hevent p hp))
  have hle : o.event.ms ≤ p.event.ms := by
    have hpair := hmono.sublist (hostTrace_events s l).sublist
    rw [List.pairwise_map, hsplit, List.pairwise_append, List.pairwise_cons] at hpair
    obtain ⟨-, ⟨hafter, -⟩, -⟩ := hpair
    exact hafter p (by simp)
  have hlt : p.event.ms - o.event.ms < 2 ^ s.cfg.timeWidth :=
    hduties.intervals before o since p post k v hsplit hch hvo hsince hpoll
  refine ⟨before, o, since, rfl, hch, hvo, hsince, hvalue, hle, ?_⟩
  rw [hnow, hvalue, elapsed_of_mod hle hlt]

/-- Settles O58: modular subtraction gives the real interval, and reset leaves no engine, so every stamp of the run was
written by an operation of the run. -/
theorem hostDutiesMakeElapsedReal : Obligations.HostDutiesMakeElapsedReal :=
  ⟨fun _ _ _ => elapsed_of_mod, fun _ _ _ _ _ _ _ _ => hostRun_elapsed_real rfl⟩

end Sys2Proof.Machine
end

section
/-! PROOFS. The circular queue buffer is a first-in first-out list of at most four commands (10_state.md R32;
43_sa_engine.md R119, R120, R124). -/

namespace Sys2Proof.Machine

/-- The queue has its four slots, and its head and its occupancy are in range (R32). -/
structure SaQueue.InRange (q : SaQueue) : Prop where
  slots : q.slots.length = 4
  head : q.head < 4
  count : q.count ≤ 4

theorem SaQueue.Wf.inRange {c : Config} {q : SaQueue} (h : q.Wf c) : q.InRange := by
  obtain ⟨hl, hh, hc, -⟩ := h
  exact ⟨hl, hh, hc⟩

/-- A queue with its four slots takes every enqueue. -/
theorem queuePush_answers {q : SaQueue} (hl : q.slots.length = 4) (f : List Byte) (id : CmdId) :
    ∃ q', queuePush f id q = .ok q' := by
  by_cases hc : q.count = 4
  · exact ⟨_, queuePush_full f id hc⟩
  · exact ⟨_, queuePush_room f id hl hc⟩

theorem queuePush_head {q q' : SaQueue} {f : List Byte} {id : CmdId} (h : queuePush f id q = .ok q') :
    q'.head = q.head := by
  rcases queuePush_ok h with ⟨-, rfl⟩ | ⟨-, -, rfl⟩ <;> rfl

theorem queuePush_inRange {q q' : SaQueue} {f : List Byte} {id : CmdId} (hq : q.InRange)
    (h : queuePush f id q = .ok q') : q'.InRange := by
  obtain ⟨hl, hh, hc⟩ := hq
  rcases queuePush_ok h with ⟨-, rfl⟩ | ⟨hroom, -, rfl⟩
  · exact ⟨hl, hh, hc⟩
  · exact ⟨by simpa using hl, hh, by dsimp only; omega⟩

theorem queuePop_inRange {q q' : SaQueue} (hq : q.InRange) (h : queuePop q = .ok q') : q'.InRange := by
  obtain ⟨hl, -, hc⟩ := hq
  obtain ⟨-, rfl⟩ := queuePop_ok h
  exact ⟨hl, Nat.mod_lt _ (by decide), (Nat.sub_le _ _).trans hc⟩

/-- An enqueue appends the command to the live entries, and drops it when four are there (R119). -/
theorem queueEntries_push_take {q q' : SaQueue} {f : List Byte} {id : CmdId} (hq : q.InRange)
    (h : queuePush f id q = .ok q') : queueEntries q' = (queueEntries q ++ [(⟨id, f⟩ : Slot)]).take 4 := by
  have hlen := queueEntries_length hq.slots
  rcases queuePush_ok h with ⟨hfull, rfl⟩ | ⟨hroom, -, hq'⟩
  · rw [List.take_left' (by rw [hlen, hfull])]
  · have hlen' := queueEntries_length (queuePush_inRange hq h).slots
    have hc : q'.count = q.count + 1 := by rw [hq']
    have hle := hq.count
    rcases queueEntries_push hq.slots hq.count h with he | he
    · rw [he] at hlen'
      omega
    · rw [he, List.take_of_length_le]
      simp only [List.length_append, List.length_singleton]
      omega

/-- With an entry live, the front slot is the first live entry (R124). -/
theorem queueFront_of_live {q : SaQueue} (hq : q.InRange) (hpos : 0 < q.count) :
    ∃ x, queueFront q = .ok x ∧ (queueEntries q).head? = some x := by
  have hi : q.head < q.slots.length := hq.slots ▸ hq.head
  have hx : q.slots[q.head]? = some q.slots[q.head] := List.getElem?_eq_getElem hi
  exact ⟨_, queueFront_eq_ok.2 hx, by rw [queueEntries_head? hq.slots hq.head, if_pos hpos, hx]⟩

/-- Settles O26: each queue operation, read on the list of live entries, is that of a bounded first-in first-out
list. -/
theorem queueIsBoundedFifo : Obligations.QueueIsBoundedFifo := by
  intro q f id hl hh hc
  have hq : q.InRange := ⟨hl, hh, hc⟩
  refine ⟨queueEntries_length hl, ?_, fun hpos => ?_, queueFront_of_live hq⟩
  · obtain ⟨q', h⟩ := queuePush_answers hl f id
    obtain ⟨hl', hh', hc'⟩ := queuePush_inRange hq h
    exact ⟨q', h, queueEntries_push_take hq h, hl', hh', hc'⟩
  · have h := queuePop_pos hpos
    obtain ⟨hl', hh', hc'⟩ := queuePop_inRange hq h
    exact ⟨_, h, queueEntries_pop hl, hl', hh', hc'⟩

end Sys2Proof.Machine
end

section
/-! PROOFS. The register-read space as a table (10_state.md R46, 46_host_ops.md R167): no id stands in it twice, so a
register reads the value of its row, and an id of no row fails. -/

namespace Sys2Proof.Machine

/-! The table and its ids. -/

/-- The ids of every configuration (R46, rows marked any). -/
def anyIds : List Byte := [0x00, 0x01, 0x02]

/-- The ids of the engine in the slot (R46, rows marked SA and TR). -/
def engineIds : Engine → List Byte
  | .none => []
  | .sa _ => [0x10, 0x11, 0x12, 0x13, 0x14, 0x15, 0x16, 0x17, 0x18, 0x19, 0x1A, 0x1C, 0x1D, 0x1E, 0x30, 0x31, 0x32, 0x33]
  | .tramp _ => [0x40, 0x41, 0x42, 0x43, 0x44, 0x45, 0x46, 0x47, 0x48, 0x49, 0x4A, 0x4B, 0x4C, 0x4D, 0x4E, 0x51]

theorem registers_ids (s : State) :
    (anyRegisters s ++ engineRegisters s.engine).map Prod.fst = anyIds ++ engineIds s.engine := by
  cases s.engine <;> rfl

theorem registers_nodup (s : State) : ((anyRegisters s ++ engineRegisters s.engine).map Prod.fst).Nodup := by
  rw [registers_ids]
  cases s.engine <;> simp only [engineIds] <;> decide

/-- In a table whose keys are different a row is found under its key. -/
theorem lookup_eq_some_of_mem {α β : Type} [BEq α] [LawfulBEq α] {l : List (α × β)} {a : α} {b : β}
    (hnd : (l.map Prod.fst).Nodup) (h : (a, b) ∈ l) : l.lookup a = some b := by
  obtain ⟨l₁, l₂, rfl⟩ := List.append_of_mem h
  refine List.lookup_eq_some_iff.2 ⟨l₁, l₂, rfl, fun p hp => bne_iff_ne.2 fun hap => ?_⟩
  rw [List.map_append, List.map_cons, List.nodup_append] at hnd
  obtain ⟨-, -, hdisj⟩ := hnd
  exact hdisj p.1 (List.mem_map_of_mem hp) a List.mem_cons_self hap.symm

theorem regRead_eq_some_of_mem {s : State} {id : Byte} {v : Word}
    (h : (id, v) ∈ anyRegisters s ++ engineRegisters s.engine) : regRead s id = some v :=
  lookup_eq_some_of_mem (registers_nodup s) h

theorem regRead_eq_none {s : State} {id : Byte} (h : id ∉ anyIds ++ engineIds s.engine) : regRead s id = none := by
  refine List.lookup_eq_none_iff.2 fun p hp => bne_iff_ne.2 fun hid => h ?_
  rw [← registers_ids, hid]
  exact List.mem_map_of_mem hp

/-! REG_READ. -/

theorem exec_regRead_of_some {s : State} {id : Byte} {v : Word} (h : regRead s id = some v) :
    exec (.regRead id) s = .next { s with result := some ⟨true, v⟩ } := by
  show execRegRead id s = _
  rw [execRegRead, h]
  rfl

theorem exec_regRead_of_none {s : State} {id : Byte} (h : regRead s id = none) :
    exec (.regRead id) s = .next { s with result := some ⟨false, 0⟩ } := by
  show execRegRead id s = _
  rw [execRegRead, h]
  rfl

/-- When a table of naturals gives the registers' values as 32-bit words, REG_READ answers by its rows. -/
theorem exec_regRead_of_table {s : State} {l : List (Byte × Nat)}
    (hl : anyRegisters s ++ engineRegisters s.engine = l.map fun r => (r.1, BitVec.ofNat 32 r.2)) {id : Byte} {v : Nat}
    (h : (id, v) ∈ l) : exec (.regRead id) s = .next { s with result := some ⟨true, BitVec.ofNat 32 v⟩ } := by
  refine exec_regRead_of_some (regRead_eq_some_of_mem ?_)
  rw [hl]
  exact List.mem_map_of_mem (f := fun r : Byte × Nat => (r.1, BitVec.ofNat 32 r.2)) h

/-! The values as naturals. -/

theorem protoCode_eq_ofNat (p : Proto) : protoCode p = BitVec.ofNat 32 (match p with | .sa => 0 | .tramp => 1) := by
  cases p <;> rfl

theorem flagWord_eq_ofNat (b : Bool) : flagWord b = BitVec.ofNat 32 (if b then 1 else 0) := by
  cases b <;> rfl

theorem flagWord_decide_eq_ofNat (p : Prop) [Decidable p] :
    flagWord (decide p) = BitVec.ofNat 32 (if p then 1 else 0) := by
  simp only [flagWord_eq_ofNat, decide_eq_true_eq]

theorem phaseCode_eq_ofNat (p : SaPhase) : phaseCode p =
    BitVec.ofNat 32 (match p with | .start => 0 | .waitSettings => 1 | .waitPitFrequency => 2 | .done => 3) := by
  cases p <;> rfl

theorem saRxCode_eq_ofNat (r : SaRx) : saRxCode r =
    BitVec.ofNat 32 (match r with
      | .waitPreamble1 => 0 | .waitPreamble2 => 1 | .waitCommand => 2 | .waitLength => 3 | .waitData => 4
      | .waitCrc => 5) := by
  cases r <;> rfl

theorem versionCode_eq_ofNat (v : SaVersion) : versionCode v =
    BitVec.ofNat 32 (match v with | .unknown => 0 | .v1 => 1 | .v2 => 2 | .v21 => 3) := by
  cases v <;> rfl

theorem trStateCode_eq_ofNat (t : TrState) : trStateCode t =
    BitVec.ofNat 32 (match t with | .offline => 0 | .init => 1 | .monFreqPwrPit => 2 | .monTemp => 3 | .config => 4) := by
  cases t <;> rfl

theorem trRxCodeOf_eq_ofNat (r : TrRx) : trRxCodeOf r =
    BitVec.ofNat 32 (match r with | .waitHeader => 0 | .waitResponseCode => 1 | .accumulateData => 2) := by
  cases r <;> rfl

theorem desPitCode_eq_ofNat (d : DesPit) : desPitCode d =
    BitVec.ofNat 32 (match d with | .unset => 0 | .off => 2 ^ 31 | .on => 2 ^ 31 + 1) := by
  cases d <;> rfl

theorem zext_eq_ofNat {n : Nat} (v : BitVec n) : zext v = BitVec.ofNat 32 v.toNat := by
  rw [BitVec.ofNat_toNat]; rfl

/-- A present optional reads as bit 31 beside a value that is narrower (R46). -/
theorem optWord_eq_ofNat {n : Nat} (hn : n ≤ 31) (v : Option (BitVec n)) :
    optWord v = BitVec.ofNat 32 ((v.map fun x => 2 ^ 31 + x.toNat).getD 0) := by
  cases v with
  | none => rfl
  | some x =>
    have hx : x.toNat < 2 ^ 31 := x.isLt.trans_le (Nat.pow_le_pow_right (by decide) hn)
    have hor : 2 ^ 31 ||| x.toNat = 2 ^ 31 + x.toNat := by
      simpa using (Nat.two_pow_add_eq_or_of_lt hx 1).symm
    apply BitVec.eq_of_toNat_eq
    simp only [optWord, Option.map_some, Option.getD_some, ← hor, zext_eq_ofNat, BitVec.toNat_or, BitVec.toNat_ofNat,
      Nat.or_mod_two_pow]
    rfl

/-- The id register of logical entry `k` is that of the live entry at its position (R32, R46). -/
theorem queueEntryId_eq {q : SaQueue} (hl : q.slots.length = 4) (k : Nat) :
    queueEntryId q k = (queueEntries q)[k]?.map (·.id) := by
  rw [queueEntries_getElem? hl, queueEntryId]
  split <;> rfl

theorem optWord_queueEntryId {q : SaQueue} (hl : q.slots.length = 4) (k : Nat) :
    optWord (queueEntryId q k) = BitVec.ofNat 32 (((queueEntries q)[k]?.map fun x => 2 ^ 31 + x.id.toNat).getD 0) := by
  rw [optWord_eq_ofNat (by decide), queueEntryId_eq hl, Option.map_map]
  rfl

/-! The statements. -/

/-- Settles O9: row by row the model's register list is the table, each value as a natural number. -/
theorem regReadSmartAudioTable : Obligations.RegReadSmartAudioTable := by
  intro s e hs hl id v
  refine exec_regRead_of_table ?_
  simp only [anyRegisters, engineRegisters, hs, readyFlag, saReady, saRegisters, List.cons_append, List.nil_append,
    List.map_cons, List.map_nil, protoCode_eq_ofNat, flagWord_decide_eq_ofNat, phaseCode_eq_ofNat, saRxCode_eq_ofNat,
    versionCode_eq_ofNat, optWord_queueEntryId hl, natWord]
  simp only [optWord_eq_ofNat (show 7 ≤ 31 by decide), optWord_eq_ofNat (show 8 ≤ 31 by decide),
    optWord_eq_ofNat (show 16 ≤ 31 by decide)]
  rfl

/-- Settles O10: as for SmartAudio, with no optional fields. -/
theorem regReadTrampTable : Obligations.RegReadTrampTable := by
  intro s e hs id v
  refine exec_regRead_of_table ?_
  simp only [anyRegisters, engineRegisters, hs, readyFlag, trRegisters, List.cons_append, List.nil_append,
    List.map_cons, List.map_nil, protoCode_eq_ofNat, flagWord_eq_ofNat, trStateCode_eq_ofNat, trRxCodeOf_eq_ofNat,
    desPitCode_eq_ofNat, zext_eq_ofNat, natWord]
  rfl

theorem anyIds_lt {id : Byte} (h : id ∈ anyIds) : id.toNat < 3 := by
  revert id
  decide

theorem engineIds_sa {e : SaEngine} {id : Byte} (h : id ∈ engineIds (.sa e)) :
    (0x10 ≤ id.toNat ∧ id.toNat ≤ 0x1E ∧ id.toNat ≠ 0x1B) ∨ (0x30 ≤ id.toNat ∧ id.toNat ≤ 0x33) := by
  simp only [engineIds] at h
  revert id
  decide

theorem engineIds_tramp {e : TrEngine} {id : Byte} (h : id ∈ engineIds (.tramp e)) :
    (0x40 ≤ id.toNat ∧ id.toNat ≤ 0x4E) ∨ id.toNat = 0x51 := by
  simp only [engineIds] at h
  revert id
  decide

/-- The three registers of every configuration, when no engine exists (R46). -/
theorem anyRegisters_of_none {s : State} (hs : s.engine = .none) :
    anyRegisters s = [(0x00, protoCode s.proto), (0x01, 0), (0x02, 0)] := by
  simp [anyRegisters, readyFlag, hs, flagWord]

/-- Settles O11: with no engine the table has its first three rows, and an id in no row is found nowhere. -/
theorem regReadAbsentIdFails : Obligations.RegReadAbsentIdFails := by
  refine ⟨fun s hs => ?_, fun s id hid hsa htr => exec_regRead_of_none (regRead_eq_none fun hmem => ?_)⟩
  · have hread : ∀ id v, (id, v) ∈ [((0x00 : Byte), protoCode s.proto), (0x01, 0), (0x02, 0)] →
        exec (.regRead id) s = .next { s with result := some ⟨true, v⟩ } := fun id v h =>
      exec_regRead_of_some (regRead_eq_some_of_mem (List.mem_append_left _ (anyRegisters_of_none hs ▸ h)))
    exact ⟨hread _ (protoCode s.proto) (by simp), hread _ _ (by simp), hread _ _ (by simp)⟩
  · rcases List.mem_append.1 hmem with hany | heng
    · exact absurd (anyIds_lt hany) (by omega)
    · cases hs : s.engine with
      | none => simp [hs, engineIds] at heng
      | sa e =>
        obtain ⟨hlow, hqueue⟩ := hsa e hs
        exact (engineIds_sa (hs ▸ heng)).elim hlow hqueue
      | tramp e =>
        obtain ⟨hlow, hbad⟩ := htr e hs
        exact (engineIds_tramp (hs ▸ heng)).elim hlow hbad

end Sys2Proof.Machine
end

section
/-! PROOFS. Which engine exists (10_state.md R26, R27, R48): reset leaves none, a frame row needs the engine of its own
protocol, and only INIT and SWITCH_PROTOCOL create or discard one. -/

namespace Sys2Proof.Machine

/-! Reset. -/

theorem resetWith_inv {c : Config} (hc : c.Valid) : (State.resetWith c).Inv :=
  ⟨hc, Nat.two_pow_pos _, trivial⟩

/-- Settles O1: the fields after reset are the model's, and an empty slot has nothing to keep. -/
theorem resetLeavesNoEngine : Obligations.ResetLeavesNoEngine :=
  ⟨fun c => ⟨resetWith_proto c, resetWith_engine c, resetWith_tx c⟩, fun _ => resetWith_inv⟩

/-! The frame rows. -/

/-- What the instructions that are no host operation are: a request row builds a frame, a reply row runs its rule on the
engine of its protocol (42_sa_frames.md, 44_tramp_frames.md). -/
inductive FrameRow (i : Instr) : Prop where
  | saRequest (f : Option (List Byte)) (h : ∀ s, exec i s = buildSa f s)
  | saReply (r : Byte) (p : List Byte) (h : ∀ s, exec i s = onSa (saDispatch s.cfg r p) s)
  | trRequest (f : Config → Option (List Byte)) (h : ∀ s, exec i s = buildTr (f s.cfg) s)
  | trReply (r : TrEngine → TrEngine) (h : ∀ s, exec i s = onTr (fun e => .ok (r e)) s)

theorem frameRow_of_not_hostOp {i : Instr} (hi : isHostOp i = false) : FrameRow i := by
  cases i with
  | saGetSettings => exact .saRequest _ fun _ => rfl
  | saSetPower pw => exact .saRequest _ fun _ => rfl
  | saSetChannel idx => exact .saRequest _ fun _ => rfl
  | saSetFrequency v => exact .saRequest _ fun _ => rfl
  | saSetMode m => exact .saRequest _ fun _ => rfl
  | saReplySettingsV1 p => exact .saReply 0x01 p fun _ => rfl
  | saReplySettingsV2 p => exact .saReply 0x09 p fun _ => rfl
  | saReplySettingsV21 p => exact .saReply 0x11 p fun _ => rfl
  | saReplySetPower p => exact .saReply 0x02 p fun _ => rfl
  | saReplySetChannel p => exact .saReply 0x03 p fun _ => rfl
  | saReplySetFrequency p => exact .saReply 0x04 p fun _ => rfl
  | saReplySetMode p => exact .saReply 0x05 p fun _ => rfl
  | saReplyOther code p => exact .saReply code p fun _ => rfl
  | trResetQuery => exact .trRequest (fun _ => some trResetQueryFrame) fun _ => rfl
  | trStatusQuery => exact .trRequest (fun _ => some trStatusQueryFrame) fun _ => rfl
  | trTempQuery => exact .trRequest (fun _ => some trTempQueryFrame) fun _ => rfl
  | trSetFrequency mhz => exact .trRequest (fun _ => some (trSetFrequencyFrame mhz)) fun _ => rfl
  | trSetPower mw => exact .trRequest (fun _ => some (trSetPowerFrame mw)) fun _ => rfl
  | trSetActive pitOn => exact .trRequest (fun c => some (trSetActiveFrame c pitOn)) fun _ => rfl
  | trReplyReset mn mx mp => exact .trReply (trRespReset mn mx mp) fun _ => rfl
  | trReplyStatus freq power ctrl pit act => exact .trReply (trRespStatus freq power ctrl pit act) fun _ => rfl
  | trReplyTemp temp => exact .trReply (trRespTemp temp) fun _ => rfl
  | _ => cases hi

theorem buildSa_of_not_sa {f : Option (List Byte)} {s : State} (hs : ∀ e, s.engine ≠ .sa e) :
    buildSa f s = .next s := by
  unfold buildSa
  split
  · exact absurd (by assumption) (hs _)
  · rfl

theorem buildTr_of_not_tramp {f : Option (List Byte)} {s : State} (hs : ∀ e, s.engine ≠ .tramp e) :
    buildTr f s = .next s := by
  unfold buildTr
  split
  · exact absurd (by assumption) (hs _)
  · rfl

theorem onSa_of_not_sa {r : SaEngine → Except Fault SaEngine} {s : State} (hs : ∀ e, s.engine ≠ .sa e) :
    onSa r s = .next s := by
  unfold onSa
  split
  · exact absurd (by assumption) (hs _)
  · rfl

theorem onTr_of_not_tramp {r : TrEngine → Except Fault TrEngine} {s : State} (hs : ∀ e, s.engine ≠ .tramp e) :
    onTr r s = .next s := by
  unfold onTr
  split
  · exact absurd (by assumption) (hs _)
  · rfl

/-- Settles O38: each row is a builder or a rule that looks for the engine of its own protocol first. -/
theorem frameRowsNeedTheirEngine : Obligations.FrameRowsNeedTheirEngine := by
  intro s x v w u b p
  constructor <;> intro hs
  · have hreq : ∀ f, buildSa f s = .next s := fun f => buildSa_of_not_sa hs
    have hrep : ∀ r, onSa r s = .next s := fun r => onSa_of_not_sa hs
    simp only [List.forall_mem_cons]
    exact ⟨hreq _, hreq _, hreq _, hreq _, hreq _, hrep _, hrep _, hrep _, hrep _, hrep _, hrep _, hrep _, hrep _, nofun⟩
  · have hreq : ∀ f, buildTr f s = .next s := fun f => buildTr_of_not_tramp hs
    have hrep : ∀ r : TrEngine → TrEngine, onTr (fun e => .ok (r e)) s = .next s := fun r => onTr_of_not_tramp hs
    simp only [List.forall_mem_cons]
    exact ⟨hreq _, hreq _, hreq _, hreq _, hreq _, hreq _, hrep _, hrep _, hrep _, nofun⟩

/-! The setters. -/

/-- What the setters are (46_host_ops.md R163 to R166): `fail` with no engine, else the rule of the engine in the slot,
which may fail too. -/
structure Setter (i : Instr) (sa : Config → SaEngine → Except Fault (Option SaEngine))
    (tramp : Config → Nat → TrEngine → Option (TrEngine × Option (List Byte))) : Prop where
  none : ∀ s, s.engine = .none → exec i s = .next (retFail s)
  sa : ∀ s e, s.engine = .sa e → exec i s = finishSaSetter (sa s.cfg e) s
  tramp : ∀ s e, s.engine = .tramp e → exec i s = finishTrSetter (tramp s.cfg s.now e) s

theorem setter_setFreq (mhz : Half) :
    Setter (.setFreq mhz) (fun _ => saSetFrequency mhz) (fun c now => trSetFrequency c now mhz) :=
  ⟨fun _ => execSetFreq_none, fun _ _ => execSetFreq_sa, fun _ _ => execSetFreq_tramp⟩

theorem setter_setPower (mw : Half) :
    Setter (.setPower mw) (fun c => saSetPower c mw) (fun c now => trSetPower c now mw) :=
  ⟨fun _ => execSetPower_none, fun _ _ => execSetPower_sa, fun _ _ => execSetPower_tramp⟩

theorem setter_setPit (on : Bool) :
    Setter (.setPit on) (fun _ => saSetPitMode on) (fun c now => trSetPitMode c now on) :=
  ⟨fun _ => execSetPit_none, fun _ _ => execSetPit_sa, fun _ _ => execSetPit_tramp⟩

/-- SET_BANDCH fails on a TRAMP engine (45_tramp_engine.md R153). -/
theorem setter_setBandCh (band channel : Byte) :
    Setter (.setBandCh band channel) (fun _ => saSetBandCh band channel) (fun _ _ _ => none) :=
  ⟨fun _ => execSetBandCh_none, fun _ _ => execSetBandCh_sa, fun _ _ => execSetBandCh_tramp⟩

/-! The queries that can fail: each gives its result and writes nothing else. -/

theorem execIsReady_next {s t : State} (h : execIsReady s = .next t) : ∃ ok data, t = ret ok data s := by
  unfold execIsReady at h
  split at h <;> cases h <;> exact ⟨_, _, rfl⟩

theorem execSaValidate_next {m : List Byte} {s t : State} (h : execSaValidate m s = .next t) :
    ∃ ok data, t = ret ok data s := by
  unfold execSaValidate at h
  split at h <;> cases h <;> exact ⟨_, _, rfl⟩

theorem execTrampChecksum_next {f : List Byte} {s t : State} (h : execTrampChecksum f s = .next t) :
    ∃ ok data, t = ret ok data s := by
  unfold execTrampChecksum at h
  split at h <;> cases h <;> exact ⟨_, _, rfl⟩

theorem execTrampValidate_next {f : List Byte} {s t : State} (h : execTrampValidate f s = .next t) :
    ∃ ok data, t = ret ok data s := by
  unfold execTrampValidate at h
  split at h <;> cases h <;> exact ⟨_, _, rfl⟩

/-! The engine's lifetime. -/

/-- The protocol of the engine in the slot, if one exists (R27). -/
def engineProto : Engine → Option Proto
  | .none => none
  | .sa _ => some .sa
  | .tramp _ => some .tramp

theorem engineProto_eq_none {g : Engine} : engineProto g = none ↔ g = .none := by
  cases g <;> simp [engineProto]

theorem engineProto_eq_sa {g : Engine} : engineProto g = some .sa ↔ ∃ e, g = .sa e := by
  cases g <;> simp [engineProto]

theorem engineProto_eq_tramp {g : Engine} : engineProto g = some .tramp ↔ ∃ e, g = .tramp e := by
  cases g <;> simp [engineProto]

/-- Neither the selected protocol nor which engine exists differs between the states. -/
structure KeepsEngine (s t : State) : Prop where
  proto : t.proto = s.proto
  engine : engineProto t.engine = engineProto s.engine

theorem KeepsEngine.refl (s : State) : KeepsEngine s s := ⟨rfl, rfl⟩

theorem KeepsEngine.of_ret (ok : Bool) (data : Word) (s : State) : KeepsEngine s (ret ok data s) := ⟨rfl, rfl⟩

theorem KeepsEngine.of_retFail (s : State) : KeepsEngine s (retFail s) := .of_ret false 0 s

/-- An engine is replaced by one of its own protocol, a frame may leave, and the result is given. -/
theorem KeepsEngine.of_setEngine {s : State} {g g' : Engine} (hs : s.engine = g) (h : engineProto g' = engineProto g)
    (f : Option (List Byte)) : KeepsEngine s (retOk (txSent f (setEngine g' s))) :=
  ⟨by simp, by simp [hs, h]⟩

theorem keepsEngine_of_frameRow {i : Instr} {s t : State} (hi : FrameRow i) (h : exec i s = .next t) :
    KeepsEngine s t := by
  cases hi with
  | saRequest f hex =>
    rcases buildSa_next ((hex s).symm.trans h) with ⟨-, rfl⟩ | ⟨-, rfl⟩
    · exact .refl _
    · exact ⟨rfl, rfl⟩
  | saReply r p hex =>
    rcases onSa_next ((hex s).symm.trans h) with ⟨-, rfl⟩ | ⟨e, e', hs, -, rfl⟩
    · exact .refl _
    · exact ⟨rfl, by simp [hs, engineProto]⟩
  | trRequest f hex =>
    rcases buildTr_next ((hex s).symm.trans h) with ⟨-, rfl⟩ | ⟨-, rfl⟩
    · exact .refl _
    · exact ⟨rfl, rfl⟩
  | trReply r hex =>
    rcases onTr_next ((hex s).symm.trans h) with ⟨-, rfl⟩ | ⟨e, e', hs, -, rfl⟩
    · exact .refl _
    · exact ⟨rfl, by simp [hs, engineProto]⟩

theorem keepsEngine_of_setter {i : Instr} {sa : Config → SaEngine → Except Fault (Option SaEngine)}
    {tramp : Config → Nat → TrEngine → Option (TrEngine × Option (List Byte))} (hi : Setter i sa tramp) {s t : State}
    (h : exec i s = .next t) : KeepsEngine s t := by
  cases hs : s.engine with
  | none =>
    cases (hi.none s hs).symm.trans h
    exact .of_retFail s
  | sa e =>
    rcases finishSaSetter_next ((hi.sa s e hs).symm.trans h) with ⟨-, rfl⟩ | ⟨e', -, rfl⟩
    · exact .of_retFail s
    · exact .of_setEngine (g' := .sa e') hs rfl none
  | tramp e =>
    rcases finishTrSetter_next ((hi.tramp s e hs).symm.trans h) with ⟨-, rfl⟩ | ⟨e', f, -, rfl⟩
    · exact .of_retFail s
    · exact .of_setEngine (g' := .tramp e') hs rfl f

theorem keepsEngine_of_query {s t : State} (h : ∃ ok data, t = ret ok data s) : KeepsEngine s t := by
  obtain ⟨ok, data, rfl⟩ := h
  exact .of_ret ok data s

theorem keepsEngine_of_poll {rx : List Byte} {s t : State} (h : execPoll rx s = .next t) : KeepsEngine s t := by
  rcases execPoll_next h with ⟨-, rfl⟩ | ⟨e, e', f, hs, -, rfl⟩ | ⟨e, e', f, hs, -, rfl⟩
  · exact .of_retFail s
  · exact .of_setEngine (g' := .sa e') hs rfl f
  · exact .of_setEngine (g' := .tramp e') hs rfl f

/-- An instruction that neither creates nor discards an engine keeps the selected protocol and which engine exists. -/
theorem exec_keepsEngine {i : Instr} {s t : State} (hi : replacesEngine i = false) (h : exec i s = .next t) :
    KeepsEngine s t := by
  cases i with
  | init present =>
    cases hi
    cases h
    exact .of_retFail s
  | poll rx => exact keepsEngine_of_poll h
  | isReady => exact keepsEngine_of_query (execIsReady_next h)
  | setFreq mhz => exact keepsEngine_of_setter (setter_setFreq mhz) h
  | setPower mw => exact keepsEngine_of_setter (setter_setPower mw) h
  | setPit enable => exact keepsEngine_of_setter (setter_setPit enable) h
  | setBandCh band channel => exact keepsEngine_of_setter (setter_setBandCh band channel) h
  | switchProtocol sel => cases hi
  | protocolInUse => cases h; exact .of_ret _ _ s
  | bandChToFreq band channel => cases h; exact .of_ret _ _ s
  | crc8 m => cases h; exact .of_ret _ _ s
  | trampChecksum f => exact keepsEngine_of_query (execTrampChecksum_next h)
  | regRead id =>
    rcases execRegRead_next h with ⟨-, rfl⟩ | ⟨v, -, rfl⟩
    · exact .of_retFail s
    · exact .of_ret _ _ s
  | saValidate m => exact keepsEngine_of_query (execSaValidate_next h)
  | trampValidate f => exact keepsEngine_of_query (execTrampValidate_next h)
  | _ => exact keepsEngine_of_frameRow (frameRow_of_not_hostOp rfl) h

/-- INIT keeps the selected protocol as well (46_host_ops.md R158). -/
theorem execInit_proto {present : Bool} {s t : State} (h : execInit present s = .next t) : t.proto = s.proto := by
  unfold execInit at h
  split at h <;> cases h
  · obtain ⟨-, -, -, hp⟩ := createEngine_ports s
    exact hp
  · rfl

/-- Settles O53: an instruction that may replace the engine is INIT or SWITCH_PROTOCOL, and every other one keeps the
protocol and the kind of the slot. -/
theorem engineLifetime : Obligations.EngineLifetime := by
  intro i s t h
  refine ⟨(exec_effect h).cfg, fun hsw => ?_, fun hi => ?_⟩
  · cases hi : replacesEngine i with
    | false => exact (exec_keepsEngine hi h).proto
    | true =>
      cases i with
      | init present => exact execInit_proto h
      | switchProtocol sel => exact absurd rfl (hsw sel)
      | _ => cases hi
  · have hkeep := (exec_keepsEngine hi h).engine
    rw [← engineProto_eq_none, ← engineProto_eq_none, ← engineProto_eq_sa, ← engineProto_eq_sa,
      ← engineProto_eq_tramp, ← engineProto_eq_tramp, hkeep]
    exact ⟨.rfl, .rfl, .rfl⟩

end Sys2Proof.Machine
end

section
/-! PROOFS. What stands in queue slots that hold no live entry is never observed (10_state.md R32, R47): on two states
that differ in such slots only, every rule gives the same answer and leaves such states again. -/

namespace Sys2Proof.Machine

/-! Rules that follow each other. -/

/-- Where the first computation answers, the second answers too, and their answers are related. -/
def Follows {α β : Type} (R : α → β → Prop) (x : Except Fault α) (y : Except Fault β) : Prop :=
  ∀ a, x = .ok a → ∃ b, y = .ok b ∧ R a b

section Follows
variable {α β γ δ : Type} {R : α → β → Prop} {S : γ → δ → Prop}

theorem Follows.ok {a : α} {b : β} (h : R a b) : Follows R (.ok a) (.ok b) := by
  rintro _ ⟨⟩
  exact ⟨b, rfl, h⟩

theorem Follows.bind {x : Except Fault α} {y : Except Fault β} {f : α → Except Fault γ} {g : β → Except Fault δ}
    (h : Follows R x y) (hf : ∀ a b, x = .ok a → R a b → Follows S (f a) (g b)) : Follows S (x >>= f) (y >>= g) := by
  intro c hc
  obtain ⟨a, ha, hfa⟩ := bind_eq_ok.1 hc
  obtain ⟨b, hb, hab⟩ := h a ha
  obtain ⟨d, hd, hcd⟩ := hf a b ha hab c hfa
  exact ⟨d, bind_eq_ok.2 ⟨b, hb, hd⟩, hcd⟩

/-- The same first part on both sides: a buffer access. -/
theorem Follows.bind_same {x : Except Fault α} {f : α → Except Fault γ} {g : α → Except Fault δ}
    (hf : ∀ a, Follows S (f a) (g a)) : Follows S (x >>= f) (x >>= g) :=
  Follows.bind (R := Eq) (fun a ha => ⟨a, ha, rfl⟩) fun a _ _ hab => hab ▸ hf a

/-- Both decide alike. -/
theorem Follows.ite {p q : Prop} [Decidable p] [Decidable q] {x x' : Except Fault α} {y y' : Except Fault β}
    (hpq : p ↔ q) (h : p → Follows R x y) (h' : ¬ p → Follows R x' y') :
    Follows R (if p then x else x') (if q then y else y') := by
  by_cases hp : p
  · simpa only [if_pos hp, if_pos (hpq.1 hp)] using h hp
  · simpa only [if_neg hp, if_neg (mt hpq.2 hp)] using h' hp

end Follows

/-! The queue. -/

/-- Two queues with the same live entries at the same places; the other slots may differ. -/
structure SaQueue.SameLive (q q' : SaQueue) : Prop where
  head : q'.head = q.head
  count : q'.count = q.count
  slots : q'.slots.length = q.slots.length
  entries : queueEntries q' = queueEntries q

theorem SaQueue.SameLive.inRange {q q' : SaQueue} (h : q.SameLive q') (hq : q.InRange) : q'.InRange :=
  ⟨h.slots ▸ hq.slots, h.head ▸ hq.head, h.count ▸ hq.count⟩

/-- Queues in range with the same head and the same live entries: the occupancy is the number of entries. -/
theorem SaQueue.SameLive.of_entries {q q' : SaQueue} (hq : q.InRange) (hq' : q'.InRange) (hh : q'.head = q.head)
    (he : queueEntries q' = queueEntries q) : q.SameLive q' where
  head := hh
  count := by rw [← queueEntries_length hq.slots, ← queueEntries_length hq'.slots, he]
  slots := hq'.slots.trans hq.slots.symm
  entries := he

theorem queuePush_follows {q q' : SaQueue} (hq : q.InRange) (h : q.SameLive q') (f : List Byte) (id : CmdId) :
    Follows SaQueue.SameLive (queuePush f id q) (queuePush f id q') := by
  intro r hr
  have hq' := h.inRange hq
  obtain ⟨r', hr'⟩ := queuePush_answers hq'.slots f id
  refine ⟨r', hr', .of_entries (queuePush_inRange hq hr) (queuePush_inRange hq' hr') ?_ ?_⟩
  · rw [queuePush_head hr, queuePush_head hr', h.head]
  · rw [queueEntries_push_take hq hr, queueEntries_push_take hq' hr', h.entries]

theorem queuePop_follows {q q' : SaQueue} (hq : q.InRange) (h : q.SameLive q') :
    Follows SaQueue.SameLive (queuePop q) (queuePop q') := by
  intro r hr
  have hq' := h.inRange hq
  obtain ⟨hpos, heq⟩ := queuePop_ok hr
  have hr' := queuePop_pos (h.count ▸ hpos)
  refine ⟨_, hr', .of_entries (queuePop_inRange hq hr) (queuePop_inRange hq' hr') ?_ ?_⟩
  · rw [heq, h.head]
  · rw [heq, queueEntries_pop hq.slots, queueEntries_pop hq'.slots, h.entries]

/-- A front entry that is live is the same in both. -/
theorem queueFront_follows {q q' : SaQueue} (hq : q.InRange) (h : q.SameLive q') (hpos : 0 < q.count) :
    Follows Eq (queueFront q) (queueFront q') := by
  intro x hx
  obtain ⟨y, hy, hhead⟩ := queueFront_of_live hq hpos
  obtain ⟨y', hy', hhead'⟩ := queueFront_of_live (h.inRange hq) (h.count ▸ hpos)
  refine ⟨y', hy', ?_⟩
  have hxy : x = y := by simpa [hx] using hy
  have hyy : some y = some y' := by rw [← hhead, ← hhead', h.entries]
  exact hxy.trans (Option.some.inj hyy)

/-! The engine. -/

theorem SaEngine.sameButDeadSlots_iff {e e' : SaEngine} :
    e.SameButDeadSlots e' ↔ ∃ q, e.q.SameLive q ∧ e' = { e with q := q } := by
  constructor
  · rintro ⟨heq, hent, hlen⟩
    refine ⟨e'.q, ⟨?_, ?_, hlen, hent⟩, ?_⟩
    · rw [heq]
    · rw [heq]
    · rw [heq]
  · rintro ⟨q, ⟨hhead, hcount, hlen, hent⟩, rfl⟩
    obtain ⟨slots, head, count⟩ := q
    simp only at hhead hcount
    subst hhead hcount
    exact ⟨rfl, hent, hlen⟩

namespace SaEngine.SameButDeadSlots

theorem refl (e : SaEngine) : e.SameButDeadSlots e := ⟨rfl, rfl, rfl⟩

theorem of_sameLive {e : SaEngine} {q : SaQueue} (h : e.q.SameLive q) : e.SameButDeadSlots { e with q := q } :=
  SaEngine.sameButDeadSlots_iff.2 ⟨q, h, rfl⟩

variable {e e' : SaEngine} (h : e.SameButDeadSlots e')
include h

/-- The engines give every rule that does not read the queue the same values. -/
theorem exists_queue : ∃ q, e' = { e with q := q } := ⟨_, h.1⟩

theorem phase : e'.phase = e.phase := by obtain ⟨q, rfl⟩ := h.exists_queue; rfl

theorem rx : e'.rx = e.rx := by obtain ⟨q, rfl⟩ := h.exists_queue; rfl

theorem version : e'.version = e.version := by obtain ⟨q, rfl⟩ := h.exists_queue; rfl

theorem pitFreq : e'.pitFreq = e.pitFreq := by obtain ⟨q, rfl⟩ := h.exists_queue; rfl

theorem outstanding : e'.outstanding = e.outstanding := by obtain ⟨q, rfl⟩ := h.exists_queue; rfl

theorem lastTx : e'.lastTx = e.lastTx := by obtain ⟨q, rfl⟩ := h.exists_queue; rfl

theorem queue : e.q.SameLive e'.q := by
  obtain ⟨q, hq, rfl⟩ := SaEngine.sameButDeadSlots_iff.1 h
  exact hq

theorem setQueue {q q' : SaQueue} (hq : q.SameLive q') :
    SaEngine.SameButDeadSlots { e with q := q } { e' with q := q' } := by
  obtain ⟨_, rfl⟩ := h.exists_queue
  exact of_sameLive (e := { e with q := q }) hq

end SaEngine.SameButDeadSlots

/-- A change of the engine that neither reads nor writes the queue. -/
structure QueueBlind (f : SaEngine → SaEngine) : Prop where
  keeps : ∀ e, (f e).q = e.q
  ignores : ∀ e q, f { e with q := q } = { f e with q := q }

theorem QueueBlind.same {f : SaEngine → SaEngine} (hf : QueueBlind f) {e e' : SaEngine} (h : e.SameButDeadSlots e') :
    (f e).SameButDeadSlots (f e') := by
  obtain ⟨q, hq, rfl⟩ := SaEngine.sameButDeadSlots_iff.1 h
  rw [hf.ignores e q]
  exact .of_sameLive (by rwa [hf.keeps])

theorem setPhase_queueBlind (p : SaPhase) : QueueBlind fun e => { e with phase := p } :=
  ⟨fun _ => rfl, fun _ _ => rfl⟩

theorem setRx_queueBlind (r : SaRx) : QueueBlind fun e => { e with rx := r } := ⟨fun _ => rfl, fun _ _ => rfl⟩

theorem setOutstanding_queueBlind (o : Option CmdId) : QueueBlind fun e => { e with outstanding := o } :=
  ⟨fun _ => rfl, fun _ _ => rfl⟩

theorem setLastTx_queueBlind (v : Option Nat) : QueueBlind fun e => { e with lastTx := v } :=
  ⟨fun _ => rfl, fun _ _ => rfl⟩

/-! Queue rules on the engine. -/

section Rules
variable {e e' : SaEngine} (he : e.q.InRange) (h : e.SameButDeadSlots e')
include he h

theorem saEnqueue_follows (f : List Byte) (id : CmdId) :
    Follows SaEngine.SameButDeadSlots (saEnqueue f id e) (saEnqueue f id e') :=
  (queuePush_follows he h.queue f id).bind fun _ _ _ hr => .ok (h.setQueue hr)

theorem saComplete_follows (r : Byte) : Follows SaEngine.SameButDeadSlots (saComplete r e) (saComplete r e') := by
  unfold saComplete
  rw [h.outstanding]
  cases e.outstanding with
  | none => exact .ok h
  | some o =>
    refine Follows.ite .rfl (fun _ => ?_) fun _ => .ok h
    exact (queuePop_follows he h.queue).bind fun _ _ _ hq =>
      .ok ((setOutstanding_queueBlind none).same (h.setQueue hq))

end Rules

/-! The receiver. -/

theorem saRespond_queueBlind (c : Config) (r : Byte) (p : List Byte) : QueueBlind (saRespond c r p) := by
  constructor
  · intro e
    obtain ⟨_, _, _, _, _, _, heq, -⟩ := saRespond_eq c r p e
    rw [heq]
  · intro e q
    unfold saRespond saRespSetFreq
    dsimp only
    split_ifs <;> rfl

theorem saRxPreamble1_queueBlind (c : Config) (d : Byte) : QueueBlind (saRxPreamble1 c d) := by
  constructor <;> intros <;> unfold saRxPreamble1 <;> split <;> rfl

theorem saRxPreamble2_queueBlind (c : Config) (d : Byte) : QueueBlind (saRxPreamble2 c d) := by
  constructor <;> intros <;> unfold saRxPreamble2 <;> split <;> rfl

theorem saRxCommand_queueBlind (d : Byte) : QueueBlind (saRxCommand d) := ⟨fun _ => rfl, fun _ _ => rfl⟩

theorem saRxLength_queueBlind (c : Config) (d : Byte) : QueueBlind (saRxLength c d) := by
  constructor <;> intros <;> unfold saRxLength <;> split <;> rfl

section Receiver
variable {c : Config} {e e' : SaEngine} (he : e.q.InRange) (h : e.SameButDeadSlots e')
include he h

theorem saDispatch_follows (r : Byte) (p : List Byte) :
    Follows SaEngine.SameButDeadSlots (saDispatch c r p e) (saDispatch c r p e') := by
  have hblind := saRespond_queueBlind c r p
  exact saComplete_follows (by rwa [hblind.keeps]) (hblind.same h) r

omit he in
theorem saRxPayload_follows (d : Byte) :
    Follows SaEngine.SameButDeadSlots (saRxPayload d e) (saRxPayload d e') := by
  obtain ⟨q, hq, rfl⟩ := SaEngine.sameButDeadSlots_iff.1 h
  exact Follows.bind_same fun data => .ok (.of_sameLive hq)

theorem saRxCrc_follows (d : Byte) : Follows SaEngine.SameButDeadSlots (saRxCrc c d e) (saRxCrc c d e') := by
  obtain ⟨q, hq, rfl⟩ := SaEngine.sameButDeadSlots_iff.1 h
  have hwait := (setRx_queueBlind .waitPreamble1).same h
  exact Follows.bind_same fun p => Follows.ite .rfl (fun _ => saDispatch_follows (by exact he) hwait e.rxCmd p) fun _ =>
    .ok (.of_sameLive hq)

theorem saRxByte_follows (d : Byte) : Follows SaEngine.SameButDeadSlots (saRxByte c d e) (saRxByte c d e') := by
  unfold saRxByte
  rw [h.rx]
  cases e.rx with
  | waitPreamble1 => exact .ok ((saRxPreamble1_queueBlind c d).same h)
  | waitPreamble2 => exact .ok ((saRxPreamble2_queueBlind c d).same h)
  | waitCommand => exact .ok ((saRxCommand_queueBlind d).same h)
  | waitLength => exact .ok ((saRxLength_queueBlind c d).same h)
  | waitData => exact saRxPayload_follows h d
  | waitCrc => exact saRxCrc_follows he h d

end Receiver

theorem SaEngine.Wf.queueInRange {c : Config} {e : SaEngine} (he : e.Wf c) : e.q.InRange := he.1.inRange

theorem saRxList_follows {c : Config} : ∀ (ds : List Byte) {e e' : SaEngine}, e.Wf c → e.SameButDeadSlots e' →
    Follows SaEngine.SameButDeadSlots (saRxList c ds e) (saRxList c ds e')
  | [], _, _, _, h => .ok h
  | d :: ds, _, _, he, h => (saRxByte_follows he.queueInRange h d).bind fun _ _ ha hab =>
      saRxList_follows ds (saRxByte_wf he ha) hab

/-! The initialization step and the scheduler. -/

theorem saInitStep_follows {c : Config} {e e' : SaEngine} (he : e.q.InRange) (h : e.SameButDeadSlots e') :
    Follows SaEngine.SameButDeadSlots (saInitStep c e) (saInitStep c e') := by
  have hdone := (setPhase_queueBlind .done).same h
  unfold saInitStep
  rw [h.phase]
  cases e.phase with
  | start =>
    exact (saEnqueue_follows he h _ _).bind fun _ _ _ hr => .ok ((setPhase_queueBlind .waitSettings).same hr)
  | waitSettings =>
    refine Follows.ite (by rw [h.version]) (fun _ => .ok h) fun _ =>
      Follows.ite (by rw [h.version]) (fun _ => ?_) fun _ => .ok hdone
    exact (saEnqueue_follows he h _ _).bind fun _ _ _ hr => .ok ((setPhase_queueBlind .waitPitFrequency).same hr)
  | waitPitFrequency =>
    refine .ok ?_
    by_cases hp : e.pitFreq.isSome
    · rw [if_pos hp, if_pos (by rwa [h.pitFreq])]
      exact hdone
    · rw [if_neg hp, if_neg (by rwa [h.pitFreq])]
      exact h
  | done => exact .ok h

/-- Engines with their dead slots aside, and the same frame sent or none. -/
def SameSent (r r' : SaEngine × Option (List Byte)) : Prop := r.1.SameButDeadSlots r'.1 ∧ r.2 = r'.2

/-- An outstanding command stands in the queue (10_state.md R33). -/
theorem SaEngine.Wf.count_pos {c : Config} {e : SaEngine} (he : e.Wf c) (ho : e.outstanding ≠ none) : 0 < e.q.count := by
  obtain ⟨hq, -, hout, -⟩ := he
  obtain ⟨o, ho⟩ := Option.ne_none_iff_exists'.1 ho
  obtain ⟨x, hx, -⟩ := Option.map_eq_some_iff.1 (hout o ho).1
  rw [← queueEntries_length hq.1]
  exact List.length_pos_of_mem (List.mem_of_mem_head? hx)

/-- The scheduler reads the front slot only while its entry is live (43_sa_engine.md R124). -/
theorem saOutbound_follows {c : Config} {now : Nat} {e e' : SaEngine} (he : e.Wf c) (h : e.SameButDeadSlots e') :
    Follows SameSent (saOutbound c now e) (saOutbound c now e') := by
  have hstamp := (setLastTx_queueBlind (some now)).same h
  unfold saOutbound
  refine Follows.ite (by rw [h.outstanding])
    (fun ho => Follows.ite (by rw [h.lastTx]) (fun _ => ?_) fun _ => .ok ⟨h, rfl⟩) fun _ =>
    Follows.ite (by rw [h.queue.count]) (fun hpos => ?_) fun _ =>
    Follows.ite (by rw [h.phase, h.lastTx]) (fun _ => ?_) fun _ => .ok ⟨h, rfl⟩
  · refine (queueFront_follows he.queueInRange h.queue (he.count_pos ho)).bind ?_
    rintro x _ - rfl
    exact .ok ⟨hstamp, rfl⟩
  · refine (queueFront_follows he.queueInRange h.queue hpos).bind ?_
    rintro x _ - rfl
    exact .ok ⟨(setOutstanding_queueBlind (some x.id)).same hstamp, rfl⟩
  · exact (saEnqueue_follows he.queueInRange h _ _).bind fun _ _ _ hr => .ok ⟨hr, rfl⟩

theorem saPoll_follows {c : Config} {now : Nat} {e e' : SaEngine} (hc : c.Valid) (he : e.Wf c)
    (h : e.SameButDeadSlots e') (rx : List Byte) : Follows SameSent (saPoll c now rx e) (saPoll c now rx e') :=
  (saRxList_follows rx he h).bind fun _ _ h1 hab =>
    have he1 := saRxList_wf he h1
    (saInitStep_follows he1.queueInRange hab).bind fun _ _ h2 hbc => saOutbound_follows (saInitStep_wf hc he1 h2) hbc

/-! The setters. -/

section Setters
variable {c : Config} {e e' : SaEngine} (he : e.q.InRange) (h : e.SameButDeadSlots e')
include he h

theorem saSend_follows (f : List Byte) (id : CmdId) :
    Follows (Option.Rel SaEngine.SameButDeadSlots) (saSend f id e) (saSend f id e') :=
  (saEnqueue_follows he h f id).bind fun _ _ _ hr => .ok (.some hr)

theorem saSetFrequency_follows (f : Half) :
    Follows (Option.Rel SaEngine.SameButDeadSlots) (saSetFrequency f e) (saSetFrequency f e') :=
  Follows.ite .rfl (fun _ => saSend_follows he h _ _) fun _ => .ok .none

theorem saSetPower_follows (mw : Half) :
    Follows (Option.Rel SaEngine.SameButDeadSlots) (saSetPower c mw e) (saSetPower c mw e') := by
  unfold saSetPower
  rw [h.version]
  split
  · exact .ok .none
  · exact saSend_follows he h _ _

theorem saSetPitMode_follows (on : Bool) :
    Follows (Option.Rel SaEngine.SameButDeadSlots) (saSetPitMode on e) (saSetPitMode on e') := by
  unfold saSetPitMode
  exact Follows.ite (by rw [h.version]) (fun _ => saSend_follows he h _ _) fun _ => .ok .none

theorem saSetBandCh_follows (band channel : Byte) :
    Follows (Option.Rel SaEngine.SameButDeadSlots) (saSetBandCh band channel e) (saSetBandCh band channel e') :=
  Follows.ite .rfl (fun _ => saSend_follows he h _ _) fun _ => .ok .none

end Setters

/-! The state. -/

namespace State.SameButDeadSlots

theorem of_sa {s : State} {e e' : SaEngine} (hs : s.engine = .sa e) (h : e.SameButDeadSlots e') :
    s.SameButDeadSlots (setEngine (.sa e') s) := by
  simp only [State.SameButDeadSlots, hs, setEngine_engine]
  exact ⟨rfl, h⟩

theorem refl (s : State) : s.SameButDeadSlots s := by
  cases hs : s.engine with
  | none => simp [State.SameButDeadSlots, hs]
  | tramp e => simp [State.SameButDeadSlots, hs]
  | sa e =>
    have hself : setEngine (.sa e) s = s := by rw [← hs]; rfl
    simpa only [hself] using of_sa hs (.refl e)

/-- States that differ in dead slots only are the same, or hold SmartAudio engines that do. -/
theorem eq_or_sa {s s' : State} (h : s.SameButDeadSlots s') :
    s' = s ∨ ∃ e e', s.engine = .sa e ∧ e.SameButDeadSlots e' ∧ s' = setEngine (.sa e') s := by
  unfold State.SameButDeadSlots at h
  split at h
  · obtain ⟨heq, he⟩ := h
    exact .inr ⟨_, _, by assumption, he, heq⟩
  · exact .inl h

theorem ports {s s' : State} (h : s.SameButDeadSlots s') : s'.result = s.result ∧ s'.tx = s.tx := by
  rcases h.eq_or_sa with rfl | ⟨e, e', -, -, rfl⟩ <;> exact ⟨rfl, rfl⟩

end State.SameButDeadSlots

/-! The outcome of an instruction. -/

/-- Where the first outcome is a next state, so is the second, and the two states differ in dead slots only. -/
def OutFollows (o o' : Out) : Prop := ∀ t, o = .next t → ∃ t', o' = .next t' ∧ t.SameButDeadSlots t'

theorem OutFollows.refl (o : Out) : OutFollows o o := fun t ht => ⟨t, ht, .refl t⟩

/-- The same next state but for the dead slots of its engine. -/
theorem OutFollows.next {t : State} {e e' : SaEngine} (ht : t.engine = .sa e) (h : e.SameButDeadSlots e') :
    OutFollows (.next t) (.next (setEngine (.sa e') t)) := by
  rintro _ ⟨⟩
  exact ⟨_, rfl, .of_sa ht h⟩

section Outcomes
variable {s : State} {e e' : SaEngine} (hs : s.engine = .sa e) (h : e.SameButDeadSlots e')
include hs h

/-- A result that does not depend on the slots. -/
theorem OutFollows.ret (ok : Bool) (data : Word) :
    OutFollows (.next (ret ok data s)) (.next (Machine.ret ok data (setEngine (.sa e') s))) :=
  .next (t := Machine.ret ok data s) hs h

theorem buildSa_follows (f : Option (List Byte)) : OutFollows (buildSa f s) (buildSa f (setEngine (.sa e') s)) := by
  rw [buildSa_of_sa hs, buildSa_of_sa (setEngine_engine _ _)]
  exact .next (t := setBuilt f s) hs h

theorem buildTr_follows (f : Option (List Byte)) : OutFollows (buildTr f s) (buildTr f (setEngine (.sa e') s)) := by
  rw [buildTr_of_not_tramp (by simp [hs]), buildTr_of_not_tramp (by simp)]
  exact .next hs h

theorem onTr_follows (r : TrEngine → Except Fault TrEngine) :
    OutFollows (onTr r s) (onTr r (setEngine (.sa e') s)) := by
  rw [onTr_of_not_tramp (by simp [hs]), onTr_of_not_tramp (by simp)]
  exact .next hs h

omit h in
theorem onSa_follows {r : SaEngine → Except Fault SaEngine} (hr : Follows SaEngine.SameButDeadSlots (r e) (r e')) :
    OutFollows (onSa r s) (onSa r (setEngine (.sa e') s)) := by
  intro t ht
  rcases onSa_next ht with ⟨hne, -⟩ | ⟨e₀, e₁, hs₀, h₁, rfl⟩
  · exact absurd hs (hne e)
  · cases hs.symm.trans hs₀
    obtain ⟨e₁', h₁', hsame⟩ := hr e₁ h₁
    exact ⟨_, onSa_of_ok (setEngine_engine _ _) h₁', .of_sa (s := setEngine (.sa e₁) s) rfl hsame⟩

theorem finishSaSetter_follows {r r' : Except Fault (Option SaEngine)}
    (hr : Follows (Option.Rel SaEngine.SameButDeadSlots) r r') :
    OutFollows (finishSaSetter r s) (finishSaSetter r' (setEngine (.sa e') s)) := by
  intro t ht
  rcases finishSaSetter_next ht with ⟨hnone, rfl⟩ | ⟨e₁, hsome, rfl⟩
  · obtain ⟨_, rfl, ⟨⟩⟩ := hr _ hnone
    exact OutFollows.ret hs h false 0 _ rfl
  · obtain ⟨_, rfl, hrel⟩ := hr _ hsome
    cases hrel with
    | some hsame => exact ⟨_, rfl, .of_sa (s := retOk (setEngine (.sa e₁) s)) rfl hsame⟩

theorem execPoll_follows (hc : s.cfg.Valid) (he : e.Wf s.cfg) (rx : List Byte) :
    OutFollows (execPoll rx s) (execPoll rx (setEngine (.sa e') s)) := by
  intro t ht
  rcases execPoll_next ht with ⟨hnone, -⟩ | ⟨e₀, e₁, f, hs₀, h₁, rfl⟩ | ⟨e₀, e₁, f, htr, -⟩
  · exact absurd (hs.symm.trans hnone) (by simp)
  · cases hs.symm.trans hs₀
    obtain ⟨⟨e₁', f'⟩, h₁', hsame, hf⟩ := saPoll_follows hc he h rx _ h₁
    cases hf
    refine ⟨_, execPoll_sa (setEngine_engine _ _) h₁', ?_⟩
    have hout := State.SameButDeadSlots.of_sa (s := retOk (txSent f (setEngine (.sa e₁) s))) (by simp) hsame
    cases f <;> exact hout
  · exact absurd (hs.symm.trans htr) (by simp)

omit hs in
theorem saReady_same : saReady e' = saReady e := by
  unfold saReady
  rw [h.phase, h.version]

/-- No register shows a dead slot (R46): the entry registers show live entries only. -/
theorem regRead_same (he : e.q.InRange) (id : Byte) : regRead (setEngine (.sa e') s) id = regRead s id := by
  have hentry : ∀ k, queueEntryId e'.q k = queueEntryId e.q k := fun k => by
    rw [queueEntryId_eq (h.queue.inRange he).slots, queueEntryId_eq he.slots, h.queue.entries]
  have hsa : saRegisters e' = saRegisters e := by
    simp only [saRegisters, hentry, h.queue.count, h.queue.head]
    obtain ⟨q, rfl⟩ := h.exists_queue
    rfl
  have hany : anyRegisters (setEngine (.sa e') s) = anyRegisters s := by
    simp only [anyRegisters, readyFlag, setEngine_engine, setEngine_proto, hs, saReady_same h, ne_eq, reduceCtorEq,
      not_false_eq_true, decide_true]
  simp only [regRead, hany, setEngine_engine, hs, engineRegisters, hsa]

theorem execRegRead_follows (he : e.q.InRange) (id : Byte) :
    OutFollows (execRegRead id s) (execRegRead id (setEngine (.sa e') s)) := by
  unfold execRegRead
  rw [regRead_same hs h he]
  cases regRead s id with
  | none => exact .ret hs h _ _
  | some v => exact .ret hs h _ _

theorem execIsReady_follows : OutFollows (execIsReady s) (execIsReady (setEngine (.sa e') s)) := by
  rw [execIsReady_sa hs, execIsReady_sa (setEngine_engine _ _), saReady_same h]
  exact .ret hs h _ _

theorem execSaValidate_follows (m : List Byte) :
    OutFollows (execSaValidate m s) (execSaValidate m (setEngine (.sa e') s)) := by
  unfold execSaValidate
  cases m.getLast? with
  | none => exact .ret hs h _ _
  | some b => exact .ret hs h _ _

theorem execTrampChecksum_follows (f : List Byte) :
    OutFollows (execTrampChecksum f s) (execTrampChecksum f (setEngine (.sa e') s)) := by
  unfold execTrampChecksum
  split
  · exact .ret hs h _ _
  · exact .ret hs h _ _

theorem execTrampValidate_follows (f : List Byte) :
    OutFollows (execTrampValidate f s) (execTrampValidate f (setEngine (.sa e') s)) := by
  unfold execTrampValidate
  split
  · exact .ret hs h _ _
  · exact .ret hs h _ _

/-- INIT forgets the engine that the slot held (46_host_ops.md R158). -/
theorem execInit_follows (present : Bool) :
    OutFollows (execInit present s) (execInit present (setEngine (.sa e') s)) := by
  cases present with
  | false => exact .ret hs h _ _
  | true =>
    have hcreate : createEngine (setEngine (.sa e') s) = createEngine s := by
      unfold createEngine
      rw [setEngine_proto]
      cases s.proto <;> rfl
    simp only [execInit, hcreate]
    exact .refl _

theorem setter_follows {i : Instr} {sa : Config → SaEngine → Except Fault (Option SaEngine)}
    {tramp : Config → Nat → TrEngine → Option (TrEngine × Option (List Byte))} (hi : Setter i sa tramp)
    (hr : Follows (Option.Rel SaEngine.SameButDeadSlots) (sa s.cfg e) (sa s.cfg e')) :
    OutFollows (exec i s) (exec i (setEngine (.sa e') s)) := by
  rw [hi.sa s e hs, hi.sa _ e' (setEngine_engine _ _)]
  exact finishSaSetter_follows hs h hr

theorem frameRow_follows {i : Instr} (hi : FrameRow i) (he : e.q.InRange) :
    OutFollows (exec i s) (exec i (setEngine (.sa e') s)) := by
  cases hi with
  | saRequest f hex => rw [hex, hex]; exact buildSa_follows hs h f
  | saReply r p hex => rw [hex, hex]; exact onSa_follows hs (saDispatch_follows he h r p)
  | trRequest f hex => rw [hex, hex]; exact buildTr_follows hs h _
  | trReply r hex => rw [hex, hex]; exact onTr_follows hs h _

/-- Every instruction does the same on a state whose engine differs in dead slots only. -/
theorem exec_follows (i : Instr) (hc : s.cfg.Valid) (he : e.Wf s.cfg) :
    OutFollows (exec i s) (exec i (setEngine (.sa e') s)) := by
  have hq := he.queueInRange
  cases i with
  | init present => exact execInit_follows hs h present
  | poll rx => exact execPoll_follows hs h hc he rx
  | isReady => exact execIsReady_follows hs h
  | setFreq mhz => exact setter_follows hs h (setter_setFreq mhz) (saSetFrequency_follows hq h mhz)
  | setPower mw => exact setter_follows hs h (setter_setPower mw) (saSetPower_follows hq h mw)
  | setPit enable => exact setter_follows hs h (setter_setPit enable) (saSetPitMode_follows hq h enable)
  | setBandCh band channel =>
    exact setter_follows hs h (setter_setBandCh band channel) (saSetBandCh_follows hq h band channel)
  | protocolInUse => exact .ret hs h _ _
  | switchProtocol sel => exact .refl _
  | bandChToFreq band channel => exact .ret hs h _ _
  | crc8 m => exact .ret hs h _ _
  | trampChecksum f => exact execTrampChecksum_follows hs h f
  | regRead id => exact execRegRead_follows hs h hq id
  | saValidate m => exact execSaValidate_follows hs h m
  | trampValidate f => exact execTrampValidate_follows hs h f
  | _ => exact frameRow_follows hs h (frameRow_of_not_hostOp rfl) hq

end Outcomes

/-- Settles O60: the two states are the same, or hold engines on which every instruction does the same; result and TX
stream are no part of the slots. -/
theorem deadSlotsAreUnobservable : Obligations.DeadSlotsAreUnobservable := by
  intro i s s' t hinv hsame ht
  obtain ⟨hc, -, hw⟩ := hinv
  have hfollows : OutFollows (exec i s) (exec i s') := by
    rcases hsame.eq_or_sa with rfl | ⟨e, e', hs, h, rfl⟩
    · exact .refl _
    · rw [hs] at hw
      exact exec_follows hs h i hc hw.2
  obtain ⟨t', ht', hsame'⟩ := hfollows t ht
  exact ⟨t', ht', hsame', hsame'.ports⟩

end Sys2Proof.Machine
end

section
/-! PROOFS. From the invariant every rule answers: the receive registers and the queue's head stay inside their buffers
(20_memory.md R52), and a command is completed only while its entry is live (43_sa_engine.md R120, R123). -/

namespace Sys2Proof.Machine

/-! Rules that answer. -/

/-- The rule gives a value and no fault. -/
def Answers {α : Type} (x : Except Fault α) : Prop := ∃ a, x = .ok a

theorem Answers.ok {α : Type} (a : α) : Answers (.ok a) := ⟨a, rfl⟩

theorem Answers.bind {α β : Type} {x : Except Fault α} {f : α → Except Fault β} (h : Answers x)
    (hf : ∀ a, x = .ok a → Answers (f a)) : Answers (x >>= f) := by
  obtain ⟨a, ha⟩ := h
  obtain ⟨b, hb⟩ := hf a ha
  exact ⟨b, bind_eq_ok.2 ⟨a, ha, hb⟩⟩

/-- After the first part only values are put together. -/
theorem Answers.bind_ok {α β : Type} {x : Except Fault α} {f : α → β} (h : Answers x) :
    Answers (x >>= fun a => .ok (f a)) :=
  h.bind fun _ _ => .ok _

theorem memRead_answers {buf : List Byte} {i : Nat} (hi : i < buf.length) : Answers (memRead buf i) :=
  ⟨_, memRead_eq_ok.2 (List.getElem?_eq_getElem hi)⟩

theorem memWrite_answers {buf : List Byte} {i : Nat} (hi : i < buf.length) (v : Byte) : Answers (memWrite buf i v) :=
  ⟨_, memWrite_eq_ok.2 ⟨hi, rfl⟩⟩

theorem memReadRange_answers {buf : List Byte} {n : Nat} (hn : n ≤ buf.length) : Answers (memReadRange buf n) :=
  ⟨_, memReadRange_eq_ok.2 ⟨hn, rfl⟩⟩

/-! SmartAudio: queue and completion. -/

theorem saEnqueue_answers {e : SaEngine} (he : e.q.InRange) (f : List Byte) (id : CmdId) :
    Answers (saEnqueue f id e) :=
  ⟨_, saEnqueue_eq he.slots⟩

theorem queueFront_answers {q : SaQueue} (hq : q.InRange) (hpos : 0 < q.count) : Answers (queueFront q) := by
  obtain ⟨x, hx, -⟩ := queueFront_of_live hq hpos
  exact ⟨x, hx⟩

/-- A completion finds an entry to dequeue when an outstanding command implies a live entry (R123). -/
theorem saComplete_answers {e : SaEngine} (hlive : e.outstanding ≠ none → 0 < e.q.count) (r : Byte) :
    Answers (saComplete r e) := by
  by_cases h : ∃ o, e.outstanding = some o ∧ r ∈ replyClass o
  · obtain ⟨o, ho, hr⟩ := h
    exact ⟨_, saComplete_answered ho hr (hlive (by simp [ho]))⟩
  · exact ⟨_, saComplete_unanswered fun o ho hr => h ⟨o, ho, hr⟩⟩

/-- A handler changes neither the queue nor the outstanding command (42_sa_frames.md R113). -/
theorem saDispatch_answers {e : SaEngine} (hlive : e.outstanding ≠ none → 0 < e.q.count) (c : Config) (r : Byte)
    (p : List Byte) : Answers (saDispatch c r p e) := by
  obtain ⟨_, _, _, _, _, _, heq, -⟩ := saRespond_eq c r p e
  rw [saDispatch, heq]
  exact saComplete_answers (by exact hlive) r

/-! SmartAudio: the receiver. -/

section SaReceiver
variable {c : Config} {e : SaEngine} (he : e.Wf c)
include he

/-- A payload byte is stored below the accepted length, which fits the buffer (42_sa_frames.md R110). -/
theorem saRxPayload_answers (hs : e.rx = .waitData) (d : Byte) : Answers (saRxPayload d e) := by
  obtain ⟨-, ⟨hlen, -, hmax, hdata, -⟩, -⟩ := he
  have hcount := hdata hs
  exact (memWrite_answers (by omega) d).bind_ok

/-- The CRC is computed over an accepted length (R111). -/
theorem saRxCrc_answers (d : Byte) : Answers (saRxCrc c d e) := by
  obtain ⟨-, ⟨hlen, -, hmax, -⟩, -⟩ := id he
  refine (memReadRange_answers (by omega)).bind fun p _ => ?_
  split
  · exact saDispatch_answers (e := { e with rx := .waitPreamble1 }) he.count_pos c e.rxCmd p
  · exact .ok _

theorem saRxByte_answers (d : Byte) : Answers (saRxByte c d e) := by
  unfold saRxByte
  split
  · exact .ok _
  · exact .ok _
  · exact .ok _
  · exact .ok _
  · exact saRxPayload_answers he (by assumption) d
  · exact saRxCrc_answers he d

end SaReceiver

theorem saRxList_answers {c : Config} : ∀ (ds : List Byte) {e : SaEngine}, e.Wf c → Answers (saRxList c ds e)
  | [], _, _ => .ok _
  | d :: ds, _, he => (saRxByte_answers he d).bind fun _ h => saRxList_answers ds (saRxByte_wf he h)

/-! SmartAudio: the initialization step, the scheduler and the setters. -/

theorem saInitStep_answers {e : SaEngine} (he : e.q.InRange) (c : Config) : Answers (saInitStep c e) := by
  unfold saInitStep
  split
  · exact (saEnqueue_answers he _ _).bind_ok
  · split
    · exact .ok _
    · split
      · exact (saEnqueue_answers he _ _).bind_ok
      · exact .ok _
  · exact .ok _
  · exact .ok _

/-- The scheduler reads the front slot, whose index is in range (43_sa_engine.md R124). -/
theorem saOutbound_answers {c : Config} {e : SaEngine} (he : e.Wf c) (now : Nat) : Answers (saOutbound c now e) := by
  have hq := he.queueInRange
  unfold saOutbound
  split
  · rename_i ho
    split
    · exact (queueFront_answers hq (he.count_pos ho)).bind_ok
    · exact .ok _
  · split
    · rename_i hpos
      exact (queueFront_answers hq hpos).bind_ok
    · split
      · exact (saEnqueue_answers hq _ _).bind_ok
      · exact .ok _

theorem saPoll_answers {c : Config} {e : SaEngine} (hc : c.Valid) (he : e.Wf c) (now : Nat) (rx : List Byte) :
    Answers (saPoll c now rx e) :=
  (saRxList_answers rx he).bind fun _ h1 =>
    have he1 := saRxList_wf he h1
    (saInitStep_answers he1.queueInRange c).bind fun _ h2 => saOutbound_answers (saInitStep_wf hc he1 h2) now

section SaSetters
variable {e : SaEngine} (he : e.q.InRange)
include he

theorem saSend_answers (f : List Byte) (id : CmdId) : Answers (saSend f id e) :=
  (saEnqueue_answers he f id).bind_ok

theorem saSetFrequency_answers (f : Half) : Answers (saSetFrequency f e) := by
  unfold saSetFrequency
  split
  · exact saSend_answers he _ _
  · exact .ok _

theorem saSetPower_answers (c : Config) (mw : Half) : Answers (saSetPower c mw e) := by
  unfold saSetPower
  split
  · exact .ok _
  · exact saSend_answers he _ _

theorem saSetPitMode_answers (on : Bool) : Answers (saSetPitMode on e) := by
  unfold saSetPitMode
  split
  · exact saSend_answers he _ _
  · exact .ok _

theorem saSetBandCh_answers (band channel : Byte) : Answers (saSetBandCh band channel e) := by
  unfold saSetBandCh
  split
  · exact saSend_answers he _ _
  · exact .ok _

end SaSetters

/-! TRAMP: the receiver. Its buffer has the sixteen bytes of a frame (10_state.md R37). -/

theorem trRxHeader_answers {e : TrEngine} (hl : e.rxBuf.length = 16) (d : Byte) : Answers (trRxHeader d e) := by
  unfold trRxHeader
  split
  · exact (memWrite_answers (by omega) d).bind_ok
  · exact .ok _

theorem trRxCode_answers {e : TrEngine} (hl : e.rxBuf.length = 16) (d : Byte) : Answers (trRxCode d e) := by
  unfold trRxCode
  split
  · exact (memWrite_answers (by omega) d).bind_ok
  · exact .ok _

theorem trValidate_answers {e : TrEngine} (hl : e.rxBuf.length = 16) (c : Config) : Answers (trValidate c e) := by
  unfold trValidate
  refine (memRead_answers (by dsimp only; omega)).bind fun _ _ =>
    (memRead_answers (by dsimp only; omega)).bind fun _ _ => ?_
  split
  · exact .ok _
  · exact .ok _

/-- A data byte is stored below the frame's length (44_tramp_frames.md R139). -/
theorem trRxData_answers {e : TrEngine} (hl : e.rxBuf.length = 16) (hcount : e.rxCount < 16) (c : Config) (d : Byte) :
    Answers (trRxData c d e) := by
  refine (memWrite_answers (by omega) d).bind fun buf hbuf => ?_
  obtain ⟨-, rfl⟩ := memWrite_eq_ok.1 hbuf
  dsimp only
  split
  · exact trValidate_answers (by simpa using hl) c
  · exact .ok _

theorem trRxByte_answers {c : Config} {e : TrEngine} (he : e.Wf c) (d : Byte) : Answers (trRxByte c d e) := by
  obtain ⟨⟨hl, -, -, hacc⟩, -⟩ := he
  unfold trRxByte
  split
  · exact trRxHeader_answers hl d
  · exact trRxCode_answers hl d
  · obtain ⟨-, hcount, -⟩ := hacc (by assumption)
    exact trRxData_answers hl hcount c d

theorem trRxList_answers {c : Config} : ∀ (ds : List Byte) {e : TrEngine}, e.Wf c → Answers (trRxList c ds e)
  | [], _, _ => .ok _
  | d :: ds, _, he => (trRxByte_answers he d).bind fun _ h => trRxList_answers ds (trRxByte_wf he h)

theorem trPoll_answers {c : Config} {e : TrEngine} (he : e.Wf c) (now : Nat) (rx : List Byte) :
    Answers (trPoll c now rx e) :=
  (trRxList_answers rx he).bind_ok

/-! Outcomes that are next states. -/

/-- The outcome is a next state: no fault and no refusal. -/
def Proceeds (o : Out) : Prop := ∃ t, o = .next t

theorem Proceeds.next (t : State) : Proceeds (.next t) := ⟨t, rfl⟩

theorem finishSaSetter_proceeds {r : Except Fault (Option SaEngine)} (hr : Answers r) (s : State) :
    Proceeds (finishSaSetter r s) := by
  obtain ⟨e, rfl⟩ := hr
  cases e with
  | none => exact .next _
  | some e => exact .next _

theorem finishTrSetter_proceeds (r : Option (TrEngine × Option (List Byte))) (s : State) :
    Proceeds (finishTrSetter r s) := by
  cases r with
  | none => exact .next _
  | some r => exact .next _

theorem buildSa_proceeds (f : Option (List Byte)) (s : State) : Proceeds (buildSa f s) := by
  unfold buildSa
  split <;> exact .next _

theorem buildTr_proceeds (f : Option (List Byte)) (s : State) : Proceeds (buildTr f s) := by
  unfold buildTr
  split <;> exact .next _

theorem onSa_proceeds {r : SaEngine → Except Fault SaEngine} {s : State}
    (hr : ∀ e, s.engine = .sa e → Answers (r e)) : Proceeds (onSa r s) := by
  by_cases h : ∃ e, s.engine = .sa e
  · obtain ⟨e, hs⟩ := h
    obtain ⟨e', he'⟩ := hr e hs
    exact ⟨_, onSa_of_ok hs he'⟩
  · exact ⟨s, onSa_of_not_sa fun e hs => h ⟨e, hs⟩⟩

theorem onTr_proceeds {r : TrEngine → Except Fault TrEngine} {s : State}
    (hr : ∀ e, s.engine = .tramp e → Answers (r e)) : Proceeds (onTr r s) := by
  by_cases h : ∃ e, s.engine = .tramp e
  · obtain ⟨e, hs⟩ := h
    obtain ⟨e', he'⟩ := hr e hs
    exact ⟨_, onTr_of_ok hs he'⟩
  · exact ⟨s, onTr_of_not_tramp fun e hs => h ⟨e, hs⟩⟩

/-! The queries and INIT, which no engine rule can stop. -/

theorem execInit_proceeds (present : Bool) (s : State) : Proceeds (execInit present s) := by
  unfold execInit
  split <;> exact .next _

theorem execIsReady_proceeds (s : State) : Proceeds (execIsReady s) := by
  unfold execIsReady
  split <;> exact .next _

theorem execRegRead_proceeds (id : Byte) (s : State) : Proceeds (execRegRead id s) := by
  unfold execRegRead
  split <;> exact .next _

theorem execSaValidate_proceeds (m : List Byte) (s : State) : Proceeds (execSaValidate m s) := by
  unfold execSaValidate
  split <;> exact .next _

theorem execTrampChecksum_proceeds (f : List Byte) (s : State) : Proceeds (execTrampChecksum f s) := by
  unfold execTrampChecksum
  split <;> exact .next _

theorem execTrampValidate_proceeds (f : List Byte) (s : State) : Proceeds (execTrampValidate f s) := by
  unfold execTrampValidate
  split <;> exact .next _

/-! Every instruction, every word. -/

theorem State.Inv.sa_wf {s : State} (hs : s.Inv) {e : SaEngine} (he : s.engine = .sa e) : e.Wf s.cfg := by
  obtain ⟨-, -, hw⟩ := hs
  rw [he] at hw
  exact hw.2

theorem State.Inv.tramp_wf {s : State} (hs : s.Inv) {e : TrEngine} (he : s.engine = .tramp e) : e.Wf s.cfg := by
  obtain ⟨-, -, hw⟩ := hs
  rw [he] at hw
  exact hw.2

section Instructions
variable {s : State} (hs : s.Inv)
include hs

theorem execPoll_proceeds (rx : List Byte) : Proceeds (execPoll rx s) := by
  cases he : s.engine with
  | none => exact ⟨_, execPoll_none he⟩
  | sa e =>
    obtain ⟨⟨e', f⟩, h⟩ := saPoll_answers hs.1 (hs.sa_wf he) s.now rx
    exact ⟨_, execPoll_sa he h⟩
  | tramp e =>
    obtain ⟨⟨e', f⟩, h⟩ := trPoll_answers (hs.tramp_wf he) s.now rx
    exact ⟨_, execPoll_tramp he h⟩

theorem setter_proceeds {i : Instr} {sa : Config → SaEngine → Except Fault (Option SaEngine)}
    {tramp : Config → Nat → TrEngine → Option (TrEngine × Option (List Byte))} (hi : Setter i sa tramp)
    (hsa : ∀ e : SaEngine, e.q.InRange → Answers (sa s.cfg e)) : Proceeds (exec i s) := by
  cases he : s.engine with
  | none => exact ⟨_, hi.none s he⟩
  | sa e =>
    rw [hi.sa s e he]
    exact finishSaSetter_proceeds (hsa e (hs.sa_wf he).queueInRange) s
  | tramp e =>
    rw [hi.tramp s e he]
    exact finishTrSetter_proceeds _ s

theorem frameRow_proceeds {i : Instr} (hi : FrameRow i) : Proceeds (exec i s) := by
  cases hi with
  | saRequest f hex => rw [hex]; exact buildSa_proceeds f s
  | saReply r p hex =>
    rw [hex]
    exact onSa_proceeds fun e he => saDispatch_answers (hs.sa_wf he).count_pos s.cfg r p
  | trRequest f hex => rw [hex]; exact buildTr_proceeds _ s
  | trReply r hex => rw [hex]; exact onTr_proceeds fun e _ => .ok (r e)

theorem exec_proceeds (i : Instr) : Proceeds (exec i s) := by
  cases i with
  | init present => exact execInit_proceeds present s
  | poll rx => exact execPoll_proceeds hs rx
  | isReady => exact execIsReady_proceeds s
  | setFreq mhz => exact setter_proceeds hs (setter_setFreq mhz) fun _ he => saSetFrequency_answers he mhz
  | setPower mw => exact setter_proceeds hs (setter_setPower mw) fun _ he => saSetPower_answers he s.cfg mw
  | setPit enable => exact setter_proceeds hs (setter_setPit enable) fun _ he => saSetPitMode_answers he enable
  | setBandCh band channel =>
    exact setter_proceeds hs (setter_setBandCh band channel) fun _ he => saSetBandCh_answers he band channel
  | protocolInUse => exact .next _
  | switchProtocol sel => exact .next _
  | bandChToFreq band channel => exact .next _
  | crc8 m => exact .next _
  | trampChecksum f => exact execTrampChecksum_proceeds f s
  | regRead id => exact execRegRead_proceeds id s
  | saValidate m => exact execSaValidate_proceeds m s
  | trampValidate f => exact execTrampValidate_proceeds f s
  | _ => exact frameRow_proceeds hs (frameRow_of_not_hostOp rfl)

/-- A word that is no instruction fails, is built, or is received (30_encoding.md R72, R79, R84). -/
theorem rejectWord_proceeds (x : InWord) : Proceeds (rejectWord x s) := by
  cases x with
  | hostOp op a b list => exact .next _
  | saRequest f => exact buildSa_proceeds _ s
  | saReply f => exact onSa_proceeds fun e he => saRxList_answers f (hs.sa_wf he)
  | trRequest f => exact buildTr_proceeds _ s
  | trReply f => exact onTr_proceeds fun e he => trRxList_answers f (hs.tramp_wf he)

end Instructions

/-- Settles O56: a step is idle, or runs an instruction or receives a word on the state with its stimulus taken, which
keeps the invariant. -/
theorem stepNeverFaults : Obligations.StepNeverFaults := by
  intro s hs
  cases hin : s.input with
  | nil => exact ⟨s, step_of_no_input hin⟩
  | cons x rest =>
    have htaken := takeStimulus_inv (now := x.now) (rest := rest) hs
    simp only [step, fetch, hin]
    cases decode s.cfg x.word with
    | ok i => exact exec_proceeds htaken i
    | error r => exact rejectWord_proceeds htaken x.word

end Sys2Proof.Machine
end

section
/-! PROOFS. What an instruction appends to the TX stream (46_host_ops.md R156, R158, R161): only POLL and the setters
send, at most one frame, and only INIT requests a configuration. -/

namespace Sys2Proof.Machine

/-- The TX stream is as before, or has one frame with its flush appended (R156). -/
def SendsAtMostOne (s t : State) : Prop :=
  t.tx = s.tx ∨ ∃ f, t.tx = s.tx ++ [.group (0x00 :: f), .flush]

theorem SendsAtMostOne.of_tx_eq {s t : State} (h : t.tx = s.tx) : SendsAtMostOne s t := .inl h

/-- The engine rules hand over the frame to send, if there is one. -/
theorem SendsAtMostOne.of_txSent (f : Option (List Byte)) (g : Engine) (s : State) :
    SendsAtMostOne s (retOk (txSent f (setEngine g s))) := by
  cases f with
  | none => exact .of_tx_eq rfl
  | some f => exact .inr ⟨f, rfl⟩

theorem sendsAtMostOne_of_query {s t : State} (h : ∃ ok data, t = ret ok data s) : SendsAtMostOne s t := by
  obtain ⟨ok, data, rfl⟩ := h
  exact .of_tx_eq rfl

theorem sendsAtMostOne_of_regRead {id : Byte} {s t : State} (h : execRegRead id s = .next t) : SendsAtMostOne s t := by
  rcases execRegRead_next h with ⟨-, rfl⟩ | ⟨v, -, rfl⟩
  · exact .of_tx_eq rfl
  · exact .of_tx_eq rfl

theorem sendsAtMostOne_of_poll {rx : List Byte} {s t : State} (h : execPoll rx s = .next t) : SendsAtMostOne s t := by
  rcases execPoll_next h with ⟨-, rfl⟩ | ⟨e, e', f, -, -, rfl⟩ | ⟨e, e', f, -, -, rfl⟩
  · exact .of_tx_eq rfl
  · exact .of_txSent f _ s
  · exact .of_txSent f _ s

theorem sendsAtMostOne_of_setter {i : Instr} {sa : Config → SaEngine → Except Fault (Option SaEngine)}
    {tramp : Config → Nat → TrEngine → Option (TrEngine × Option (List Byte))} (hi : Setter i sa tramp) {s t : State}
    (h : exec i s = .next t) : SendsAtMostOne s t := by
  cases hs : s.engine with
  | none =>
    cases (hi.none s hs).symm.trans h
    exact .of_tx_eq rfl
  | sa e =>
    rcases finishSaSetter_next ((hi.sa s e hs).symm.trans h) with ⟨-, rfl⟩ | ⟨e', -, rfl⟩
    · exact .of_tx_eq rfl
    · exact .of_tx_eq rfl
  | tramp e =>
    rcases finishTrSetter_next ((hi.tramp s e hs).symm.trans h) with ⟨-, rfl⟩ | ⟨e', f, -, rfl⟩
    · exact .of_tx_eq rfl
    · exact .of_txSent f _ s

/-- A frame row gives its frame at its own port and sends nothing. -/
theorem frameRow_tx {i : Instr} {s t : State} (hi : FrameRow i) (h : exec i s = .next t) : t.tx = s.tx := by
  cases hi with
  | saRequest f hex => rcases buildSa_next ((hex s).symm.trans h) with ⟨-, rfl⟩ | ⟨-, rfl⟩ <;> rfl
  | saReply r p hex => rcases onSa_next ((hex s).symm.trans h) with ⟨-, rfl⟩ | ⟨_, _, -, -, rfl⟩ <;> rfl
  | trRequest f hex => rcases buildTr_next ((hex s).symm.trans h) with ⟨-, rfl⟩ | ⟨-, rfl⟩ <;> rfl
  | trReply r hex => rcases onTr_next ((hex s).symm.trans h) with ⟨-, rfl⟩ | ⟨_, _, -, -, rfl⟩ <;> rfl

/-- INIT requests the configuration of the selected protocol (R158). -/
theorem createEngine_tx (s : State) : ∃ baud stop, (createEngine s).tx = s.tx ++ [.configure baud 8 stop .none] := by
  unfold createEngine
  cases s.proto with
  | sa => exact ⟨saBaud, 2, rfl⟩
  | tramp => exact ⟨trBaud, 1, rfl⟩

theorem exec_sendsAtMostOne {i : Instr} {s t : State} (hi : i ≠ .init true) (h : exec i s = .next t) :
    SendsAtMostOne s t := by
  cases i with
  | init present =>
    cases present with
    | false => cases h; exact .of_tx_eq rfl
    | true => exact absurd rfl hi
  | poll rx => exact sendsAtMostOne_of_poll h
  | isReady => exact sendsAtMostOne_of_query (execIsReady_next h)
  | setFreq mhz => exact sendsAtMostOne_of_setter (setter_setFreq mhz) h
  | setPower mw => exact sendsAtMostOne_of_setter (setter_setPower mw) h
  | setPit enable => exact sendsAtMostOne_of_setter (setter_setPit enable) h
  | setBandCh band channel => exact sendsAtMostOne_of_setter (setter_setBandCh band channel) h
  | protocolInUse => cases h; exact .of_tx_eq rfl
  | switchProtocol sel => cases h; exact .of_tx_eq rfl
  | bandChToFreq band channel => cases h; exact .of_tx_eq rfl
  | crc8 m => cases h; exact .of_tx_eq rfl
  | trampChecksum f => exact sendsAtMostOne_of_query (execTrampChecksum_next h)
  | regRead id => exact sendsAtMostOne_of_regRead h
  | saValidate m => exact sendsAtMostOne_of_query (execSaValidate_next h)
  | trampValidate f => exact sendsAtMostOne_of_query (execTrampValidate_next h)
  | _ => exact .of_tx_eq (frameRow_tx (frameRow_of_not_hostOp rfl) h)

/-- Settles O54: INIT with a transport appends its configuration request, and every other instruction sends at most one
frame. -/
theorem txStreamOnlyGrows : Obligations.TxStreamOnlyGrows := by
  intro i s t h
  by_cases hi : i = .init true
  · subst hi
    cases h
    exact .inr (.inr ⟨rfl, createEngine_tx s⟩)
  · exact (exec_sendsAtMostOne hi h).imp_right .inl

end Sys2Proof.Machine
end

section
/-! PROOFS. The decoder reads back every word that the encoder writes (30_encoding.md R71, R73, R74, R76, R78, R81 to
R83), and what a frame that it accepts must be. -/

namespace Sys2Proof.Machine

/-! Operands of a host operation word (R73). -/

theorem operandFlag_flagByte (x : Bool) : operandFlag (flagByte x) = x := by cases x <;> rfl

theorem operandProto_flagByte (sel : Proto) : operandProto (flagByte (decide (sel = .tramp))) = sel := by
  cases sel <;> rfl

theorem operandBand_bandHalf (band : Byte) : operandBand (bandHalf band) = band := by
  have := band.isLt
  apply BitVec.eq_of_toNat_eq
  simp only [operandBand, bandHalf, loByte, BitVec.extractLsb'_toNat, BitVec.toNat_setWidth, Nat.shiftRight_zero]
  omega

/-- The operations are 0x01 to 0x0F; another `op` is illegal (R71, R72). -/
theorem decodeHostOp_illegal {op : Byte} (h : op = 0 ∨ 0x10 ≤ op.toNat) (a : Half) (b : Byte) (list : List Byte) :
    decodeHostOp op a b list = .error (.illegalOp op) := by
  have hne : ∀ k : Byte, 0 < k.toNat → k.toNat < 0x10 → op ≠ k := by
    rintro k hpos hlt rfl
    rcases h with rfl | h
    · exact absurd hpos (by decide)
    · omega
  simp [decodeHostOp, hne]

/-! SmartAudio frames (R74). -/

/-- A frame that the parser accepts is the raw frame of what it reads, and its payload fits. -/
theorem parseSaFrame_ok {c : Config} {f : List Byte} {r : Byte × List Byte} (h : parseSaFrame c f = .ok r) :
    f = saRawFrame r.1 r.2 ∧ r.2.length ≤ c.saMaxPayload := by
  unfold parseSaFrame at h
  split at h
  · rename_i p1 p2 cmd len rest
    split at h
    · split at h
      · rename_i hlen
        dsimp only at h
        split at h
        · cases h
          exact ⟨by assumption, (List.length_take_le _ _).trans hlen.1⟩
        · cases h
      · cases h
    · cases h
  · cases h

theorem decode_saRequest_eq_ok {c : Config} {f : List Byte} {i : Instr} :
    decode c (.saRequest f) = .ok i ↔ ∃ r, parseSaFrame c f = .ok r ∧ decodeSaRequest r.1 r.2 = .ok i := by
  cases h : parseSaFrame c f <;> simp [decode, h, bind, Except.bind]

theorem decode_saReply_eq_ok {c : Config} {f : List Byte} {i : Instr} :
    decode c (.saReply f) = .ok i ↔ ∃ r, parseSaFrame c f = .ok r ∧ decodeSaReply r.1 r.2 = i := by
  cases h : parseSaFrame c f <;> simp [decode, h, bind, Except.bind, pure, Except.pure]

/-- A request's payload, at most two bytes, fits under valid parameters. -/
theorem decode_saFrame {c : Config} {id : CmdId} {p : List Byte} {i : Instr} (hc : c.Valid) (hp : p.length ≤ 2)
    (hd : decodeSaRequest (saRequestByte id) p = .ok i) : decode c (.saRequest (saFrame id p)) = .ok i := by
  obtain ⟨hmin, hmax, -, -⟩ := hc
  exact decode_saRequest_eq_ok.2 ⟨_, parseSaFrame_saRawFrame hmax (by omega), hd⟩

theorem decode_saReply_saRawFrame {c : Config} {cmd : Byte} {p : List Byte} (hc : c.Valid)
    (hp : payloadFits c p = true) : decode c (.saReply (saRawFrame cmd p)) = .ok (decodeSaReply cmd p) := by
  obtain ⟨-, hmax, -, -⟩ := hc
  exact decode_saReply_eq_ok.2 ⟨_, parseSaFrame_saRawFrame hmax (of_decide_eq_true hp), rfl⟩

/-- A code that is not listed is "other" (R78, R79). -/
theorem decodeSaReply_other {cmd : Byte} (h : cmd ∉ listedReplyCodes) (p : List Byte) :
    decodeSaReply cmd p = .saReplyOther cmd p := by
  simp only [listedReplyCodes, List.mem_cons, List.not_mem_nil, or_false, not_or] at h
  obtain ⟨h1, h9, h11, h2, h3, h4, h5⟩ := h
  rw [decodeSaReply, if_neg h1, if_neg h9, if_neg h11, if_neg h2, if_neg h3, if_neg h4, if_neg h5]

/-! TRAMP frames (R81). -/

theorem parseTrFrame_eq_ok {f : List Byte} {code : Byte} :
    parseTrFrame f = .ok code ↔ f.length = 16 ∧ f[0]? = some 0x0F ∧ f[14]? = some (trampChecksum f) ∧
      f[15]? = some 0x00 ∧ f.getD 1 0 = code := by
  unfold parseTrFrame
  by_cases hhead : f.length = 16 ∧ f[0]? = some 0x0F
  · obtain ⟨hl, h0⟩ := hhead
    rw [if_neg (by rintro (hne | hne); exacts [hne hl, hne h0])]
    split
    · simp_all
    · split <;> simp_all
  · rw [if_pos (by simpa [trFrameLen, ← not_and_or] using hhead)]
    exact ⟨nofun, fun ⟨hl, h0, _⟩ => absurd ⟨hl, h0⟩ hhead⟩

theorem decode_trRequest_eq_ok {c : Config} {f : List Byte} {i : Instr} :
    decode c (.trRequest f) = .ok i ↔ ∃ code, parseTrFrame f = .ok code ∧ decodeTrRequest c code f = .ok i := by
  cases h : parseTrFrame f <;> simp [decode, h, bind, Except.bind]

theorem decode_trReply_eq_ok {c : Config} {f : List Byte} {i : Instr} :
    decode c (.trReply f) = .ok i ↔ ∃ code, parseTrFrame f = .ok code ∧ decodeTrReply code f = .ok i := by
  cases h : parseTrFrame f <;> simp [decode, h, bind, Except.bind]

/-- The parser reads back the code of a raw frame with twelve bytes of data. -/
theorem parseTrFrame_trRawFrame (code : Byte) {d : List Byte} (hd : d.length = 12) :
    parseTrFrame (trRawFrame code d) = .ok code := by
  refine parseTrFrame_eq_ok.2 ⟨by simp [trRawFrame_length, hd], rfl, ?_, ?_, rfl⟩
  · rw [trampChecksum_trRawFrame hd]
    simp [trRawFrame, hd]
  · simp [trRawFrame, hd]

/-- The parameter of a request frame stands at bytes 2 and 3, little-endian (R55, R81). -/
theorem trField_trFrame (code : Byte) (p : Half) : trField (trFrame code p) 2 = p := u16le_bytes p

/-- Of a request frame, whose reserved bytes are 0, the code and the parameter decide (R82). -/
theorem decode_trFrame (c : Config) (code : Byte) (p : Half) : decode c (.trRequest (trFrame code p)) =
    if code = trCodeReset then if p = 0 then .ok .trResetQuery else .error .badOperand
    else if code = trCodeStatus then if p = 0 then .ok .trStatusQuery else .error .badOperand
    else if code = trCodeTemp then if p = 0 then .ok .trTempQuery else .error .badOperand
    else if code = trCodeFreq then .ok (.trSetFrequency p)
    else if code = trCodePower then .ok (.trSetPower p)
    else if code = trCodeActive then
      if p = c.trPitInactive then .ok (.trSetActive true)
      else if p = c.trPitActive then .ok (.trSetActive false)
      else .error .badOperand
    else .error (.badCode code) := by
  have hparse : parseTrFrame (trFrame code p) = .ok code := parseTrFrame_trRawFrame code (by simp)
  simp only [decode, hparse, bind, Except.bind, decodeTrRequest, trField_trFrame, ne_eq, not_true_eq_false, if_false]

theorem decode_trReply_trRawFrame {c : Config} {code : Byte} {d : List Byte} {i : Instr} (hlen : d.length = 12)
    (hd : decodeTrReply code (trRawFrame code d) = .ok i) : decode c (.trReply (trRawFrame code d)) = .ok i :=
  decode_trReply_eq_ok.2 ⟨code, parseTrFrame_trRawFrame code hlen, hd⟩

/-- A set-active request carries one of the two `'I'` parameters, which differ (00_scope.md R7). -/
theorem decode_trSetActiveFrame {c : Config} (hc : c.Valid) (pitOn : Bool) :
    decode c (.trRequest (trSetActiveFrame c pitOn)) = .ok (.trSetActive pitOn) := by
  obtain ⟨-, -, hne, -⟩ := hc
  rw [trSetActiveFrame, decode_trFrame]
  cases pitOn with
  | true => exact if_pos rfl
  | false => exact (if_neg hne).trans (if_pos rfl)

/-! The fields of a reply (R83). -/

theorem decodeTrReply_reset (mn mx mp : Half) :
    decodeTrReply trCodeReset (trRawFrame trCodeReset (trResetData mn mx mp)) = .ok (.trReplyReset mn mx mp) := by
  have hmn : trField (trRawFrame trCodeReset (trResetData mn mx mp)) 2 = mn := u16le_bytes mn
  have hmx : trField (trRawFrame trCodeReset (trResetData mn mx mp)) 4 = mx := u16le_bytes mx
  have hmp : trField (trRawFrame trCodeReset (trResetData mn mx mp)) 6 = mp := u16le_bytes mp
  rw [decodeTrReply, if_pos rfl, hmn, hmx, hmp]

theorem decodeTrReply_status (freq power : Half) (ctrl : Byte) (pit : Bool) (act : Half) :
    decodeTrReply trCodeStatus (trRawFrame trCodeStatus (trStatusData freq power ctrl pit act)) =
      .ok (.trReplyStatus freq power ctrl pit act) := by
  have hfreq : trField (trRawFrame trCodeStatus (trStatusData freq power ctrl pit act)) 2 = freq := u16le_bytes freq
  have hpower : trField (trRawFrame trCodeStatus (trStatusData freq power ctrl pit act)) 4 = power := u16le_bytes power
  have hctrl : (trRawFrame trCodeStatus (trStatusData freq power ctrl pit act)).getD 6 0 = ctrl := rfl
  have hpit : (trRawFrame trCodeStatus (trStatusData freq power ctrl pit act)).getD 7 0 = flagByte pit := rfl
  have hact : trField (trRawFrame trCodeStatus (trStatusData freq power ctrl pit act)) 8 = act := u16le_bytes act
  have hflag : (flagByte pit != 0) = pit := by cases pit <;> rfl
  rw [decodeTrReply, if_neg (by decide), if_pos rfl, hfreq, hpower, hctrl, hpit, hact, hflag]

theorem decodeTrReply_temp (t : Half) :
    decodeTrReply trCodeTemp (trRawFrame trCodeTemp (trTempData t)) = .ok (.trReplyTemp t) := by
  have ht : trField (trRawFrame trCodeTemp (trTempData t)) 6 = t := u16le_bytes t
  rw [decodeTrReply, if_neg (by decide), if_neg (by decide), if_pos rfl, ht]

/-! What each unit's decoder answers. -/

/-- The rows of the SmartAudio requests (R76). -/
theorem decodeSaRequest_ok {cmd : Byte} {p : List Byte} {i : Instr} (h : decodeSaRequest cmd p = .ok i) :
    (cmd = 0x03 ∧ p = [] ∧ i = .saGetSettings) ∨ (∃ pw, cmd = 0x05 ∧ p = [pw] ∧ i = .saSetPower pw) ∨
    (∃ idx, cmd = 0x07 ∧ p = [idx] ∧ i = .saSetChannel idx) ∨
    (∃ hi lo, cmd = 0x09 ∧ p = [hi, lo] ∧ i = .saSetFrequency (u16be hi lo)) ∨
    (∃ m, cmd = 0x0B ∧ p = [m] ∧ i = .saSetMode m) := by
  unfold decodeSaRequest at h
  split at h
  · split at h <;> cases h
    exact .inl ⟨by assumption, rfl, rfl⟩
  split at h
  · split at h <;> cases h
    exact .inr (.inl ⟨_, by assumption, rfl, rfl⟩)
  split at h
  · split at h <;> cases h
    exact .inr (.inr (.inl ⟨_, by assumption, rfl, rfl⟩))
  split at h
  · split at h <;> cases h
    exact .inr (.inr (.inr (.inl ⟨_, _, by assumption, rfl, rfl⟩)))
  split at h
  · split at h <;> cases h
    exact .inr (.inr (.inr (.inr ⟨_, by assumption, rfl, rfl⟩)))
  · cases h

/-- The rows of the TRAMP requests (R82): the frame is the one that the encoder writes for its code and parameter. -/
theorem decodeTrRequest_ok {c : Config} {code : Byte} {f : List Byte} {i : Instr}
    (h : decodeTrRequest c code f = .ok i) : ∃ p, f = trFrame code p ∧
      ((code = trCodeReset ∧ p = 0 ∧ i = .trResetQuery) ∨ (code = trCodeStatus ∧ p = 0 ∧ i = .trStatusQuery) ∨
       (code = trCodeTemp ∧ p = 0 ∧ i = .trTempQuery) ∨ (code = trCodeFreq ∧ i = .trSetFrequency p) ∨
       (code = trCodePower ∧ i = .trSetPower p) ∨
       (∃ pitOn, code = trCodeActive ∧ p = trPitParam c pitOn ∧ i = .trSetActive pitOn)) := by
  unfold decodeTrRequest at h
  dsimp only at h
  split at h
  · cases h
  refine ⟨trField f 2, not_not.1 (by assumption), ?_⟩
  split at h
  · split at h <;> cases h
    exact .inl ⟨by assumption, by assumption, rfl⟩
  split at h
  · split at h <;> cases h
    exact .inr (.inl ⟨by assumption, by assumption, rfl⟩)
  split at h
  · split at h <;> cases h
    exact .inr (.inr (.inl ⟨by assumption, by assumption, rfl⟩))
  split at h
  · cases h
    exact .inr (.inr (.inr (.inl ⟨by assumption, rfl⟩)))
  split at h
  · cases h
    exact .inr (.inr (.inr (.inr (.inl ⟨by assumption, rfl⟩))))
  split at h
  · split at h
    · cases h
      exact .inr (.inr (.inr (.inr (.inr ⟨true, by assumption, by assumption, rfl⟩))))
    split at h <;> cases h
    exact .inr (.inr (.inr (.inr (.inr ⟨false, by assumption, by assumption, rfl⟩))))
  · cases h

/-- The rows of the TRAMP replies (R83). -/
theorem decodeTrReply_ok {code : Byte} {f : List Byte} {i : Instr} (h : decodeTrReply code f = .ok i) :
    (code = trCodeReset ∧ i = .trReplyReset (trField f 2) (trField f 4) (trField f 6)) ∨
    (code = trCodeStatus ∧ i =
      .trReplyStatus (trField f 2) (trField f 4) (f.getD 6 0) (f.getD 7 0 != 0) (trField f 8)) ∨
    (code = trCodeTemp ∧ i = .trReplyTemp (trField f 6)) := by
  unfold decodeTrReply at h
  split at h
  · cases h
    exact .inl ⟨by assumption, rfl⟩
  split at h
  · cases h
    exact .inr (.inl ⟨by assumption, rfl⟩)
  split at h
  · cases h
    exact .inr (.inr ⟨by assumption, rfl⟩)
  · cases h

/-! Encoding what was decoded. -/

theorem encode_decodeSaRequest {cmd : Byte} {p : List Byte} {i : Instr} (h : decodeSaRequest cmd p = .ok i)
    (c : Config) : encode c i = .saRequest (saRawFrame cmd p) := by
  rcases decodeSaRequest_ok h with ⟨rfl, rfl, rfl⟩ | ⟨pw, rfl, rfl, rfl⟩ | ⟨idx, rfl, rfl, rfl⟩ |
    ⟨hi, lo, rfl, rfl, rfl⟩ | ⟨m, rfl, rfl, rfl⟩
  · rfl
  · rfl
  · rfl
  · rw [encode, saSetFrequencyFrame, hiByte_u16be, loByte_u16be]; rfl
  · rfl

theorem encode_decodeSaReply (c : Config) (cmd : Byte) (p : List Byte) :
    encode c (decodeSaReply cmd p) = .saReply (saRawFrame cmd p) := by
  by_cases h : cmd ∈ listedReplyCodes
  · simp only [listedReplyCodes, List.mem_cons, List.not_mem_nil, or_false] at h
    rcases h with rfl | rfl | rfl | rfl | rfl | rfl | rfl <;> rfl
  · rw [decodeSaReply_other h]; rfl

theorem encode_decodeTrRequest {c : Config} {code : Byte} {f : List Byte} {i : Instr}
    (h : decodeTrRequest c code f = .ok i) : encode c i = .trRequest f := by
  obtain ⟨p, rfl, ⟨rfl, rfl, rfl⟩ | ⟨rfl, rfl, rfl⟩ | ⟨rfl, rfl, rfl⟩ | ⟨rfl, rfl⟩ | ⟨rfl, rfl⟩ |
    ⟨pitOn, rfl, rfl, rfl⟩⟩ := decodeTrRequest_ok h <;> rfl

/-! Well-formedness of what was decoded. -/

/-- One row of a decoder's table: its instruction is well-formed, and so is what the rows after it answer. -/
theorem wellFormed_of_row {c : Config} {q : Prop} [Decidable q] {j i : Instr} {r : Except DecodeError Instr}
    (hj : j.wellFormed c = true) (hr : r = .ok i → i.wellFormed c = true) :
    (if q then .ok j else r) = .ok i → i.wellFormed c = true := by
  split
  · rintro ⟨⟩; exact hj
  · exact hr

/-- The fifteen host operations are well-formed with every operand (R70, R73). -/
theorem decodeHostOp_wellFormed {c : Config} {op : Byte} {a : Half} {b : Byte} {list : List Byte} {i : Instr} :
    decodeHostOp op a b list = .ok i → i.wellFormed c = true := by
  unfold decodeHostOp
  iterate 15 refine wellFormed_of_row rfl ?_
  exact nofun

theorem decodeSaReply_wellFormed {c : Config} {p : List Byte} (hp : payloadFits c p = true) (cmd : Byte) :
    (decodeSaReply cmd p).wellFormed c = true := by
  by_cases h : cmd ∈ listedReplyCodes
  · simp only [listedReplyCodes, List.mem_cons, List.not_mem_nil, or_false] at h
    rcases h with rfl | rfl | rfl | rfl | rfl | rfl | rfl <;> exact hp
  · rw [decodeSaReply_other h]
    simp [Instr.wellFormed, h, hp]

theorem decodeSaRequest_wellFormed {c : Config} {cmd : Byte} {p : List Byte} {i : Instr}
    (h : decodeSaRequest cmd p = .ok i) : i.wellFormed c = true := by
  rcases decodeSaRequest_ok h with ⟨-, -, rfl⟩ | ⟨_, -, -, rfl⟩ | ⟨_, -, -, rfl⟩ | ⟨_, _, -, -, rfl⟩ |
    ⟨_, -, -, rfl⟩ <;> rfl

theorem decodeTrRequest_wellFormed {c : Config} {code : Byte} {f : List Byte} {i : Instr}
    (h : decodeTrRequest c code f = .ok i) : i.wellFormed c = true := by
  obtain ⟨p, -, ⟨-, -, rfl⟩ | ⟨-, -, rfl⟩ | ⟨-, -, rfl⟩ | ⟨-, rfl⟩ | ⟨-, rfl⟩ | ⟨_, -, -, rfl⟩⟩ :=
    decodeTrRequest_ok h <;> rfl

theorem decodeTrReply_wellFormed {c : Config} {code : Byte} {f : List Byte} {i : Instr}
    (h : decodeTrReply code f = .ok i) : i.wellFormed c = true := by
  rcases decodeTrReply_ok h with ⟨-, rfl⟩ | ⟨-, rfl⟩ | ⟨-, rfl⟩ <;> rfl

/-! The statements. -/

/-- Settles O20: a host operation gives back its operands, a SmartAudio frame its payload and a TRAMP frame its
fields. -/
theorem decodeOfEncode : Obligations.DecodeOfEncode := by
  intro c i hc hi
  cases i with
  | init present => exact congrArg (Except.ok ∘ Instr.init) (operandFlag_flagByte present)
  | poll rx => rfl
  | isReady => rfl
  | setFreq mhz => rfl
  | setPower mw => rfl
  | setPit enable => exact congrArg (Except.ok ∘ Instr.setPit) (operandFlag_flagByte enable)
  | setBandCh band channel =>
    exact congrArg (fun x => Except.ok (Instr.setBandCh x channel)) (operandBand_bandHalf band)
  | protocolInUse => rfl
  | switchProtocol sel => exact congrArg (Except.ok ∘ Instr.switchProtocol) (operandProto_flagByte sel)
  | bandChToFreq band channel =>
    exact congrArg (fun x => Except.ok (Instr.bandChToFreq x channel)) (operandBand_bandHalf band)
  | crc8 m => rfl
  | trampChecksum f => rfl
  | regRead id => rfl
  | saValidate m => rfl
  | trampValidate f => rfl
  | saGetSettings => exact decode_saFrame hc (by simp) rfl
  | saSetPower pw => exact decode_saFrame hc (by simp) rfl
  | saSetChannel idx => exact decode_saFrame hc (by simp) rfl
  | saSetFrequency v =>
    exact decode_saFrame hc (by simp) (congrArg (Except.ok ∘ Instr.saSetFrequency) (u16be_bytes v))
  | saSetMode m => exact decode_saFrame hc (by simp) rfl
  | saReplyOther code p =>
    simp only [Instr.wellFormed, Bool.and_eq_true, Bool.not_eq_true', List.contains_eq_mem,
      decide_eq_false_iff_not] at hi
    obtain ⟨hcode, hp⟩ := hi
    exact (decode_saReply_saRawFrame hc hp).trans (congrArg Except.ok (decodeSaReply_other hcode p))
  | saReplySettingsV1 p => exact decode_saReply_saRawFrame hc hi
  | saReplySettingsV2 p => exact decode_saReply_saRawFrame hc hi
  | saReplySettingsV21 p => exact decode_saReply_saRawFrame hc hi
  | saReplySetPower p => exact decode_saReply_saRawFrame hc hi
  | saReplySetChannel p => exact decode_saReply_saRawFrame hc hi
  | saReplySetFrequency p => exact decode_saReply_saRawFrame hc hi
  | saReplySetMode p => exact decode_saReply_saRawFrame hc hi
  | trResetQuery => exact decode_trFrame c trCodeReset 0
  | trStatusQuery => exact decode_trFrame c trCodeStatus 0
  | trTempQuery => exact decode_trFrame c trCodeTemp 0
  | trSetFrequency mhz => exact decode_trFrame c trCodeFreq mhz
  | trSetPower mw => exact decode_trFrame c trCodePower mw
  | trSetActive pitOn => exact decode_trSetActiveFrame hc pitOn
  | trReplyReset mn mx mp => exact decode_trReply_trRawFrame rfl (decodeTrReply_reset mn mx mp)
  | trReplyStatus freq power ctrl pit act =>
    exact decode_trReply_trRawFrame rfl (decodeTrReply_status freq power ctrl pit act)
  | trReplyTemp t => exact decode_trReply_trRawFrame rfl (decodeTrReply_temp t)

/-- Settles O21: only a SmartAudio reply carries a condition, and the parser has checked its length. -/
theorem decodedIsWellFormed : Obligations.DecodedIsWellFormed := by
  intro c x i h
  cases x with
  | hostOp op a b list => exact decodeHostOp_wellFormed h
  | saRequest f =>
    obtain ⟨r, -, hr⟩ := decode_saRequest_eq_ok.1 h
    exact decodeSaRequest_wellFormed hr
  | saReply f =>
    obtain ⟨r, hparse, rfl⟩ := decode_saReply_eq_ok.1 h
    exact decodeSaReply_wellFormed (decide_eq_true (parseSaFrame_ok hparse).2) r.1
  | trRequest f =>
    obtain ⟨code, -, hr⟩ := decode_trRequest_eq_ok.1 h
    exact decodeTrRequest_wellFormed hr
  | trReply f =>
    obtain ⟨code, -, hr⟩ := decode_trReply_eq_ok.1 h
    exact decodeTrReply_wellFormed hr

/-- Settles O22: the parsers compare the frame with the one that the encoder writes for what they read. -/
theorem encodeOfDecodedFrame : Obligations.EncodeOfDecodedFrame := by
  intro c f i
  refine ⟨fun h => ?_, fun h => ?_, fun h => ?_⟩
  · obtain ⟨r, hparse, hr⟩ := decode_saRequest_eq_ok.1 h
    rw [(parseSaFrame_ok hparse).1, encode_decodeSaRequest hr]
  · obtain ⟨r, hparse, rfl⟩ := decode_saReply_eq_ok.1 h
    rw [(parseSaFrame_ok hparse).1, encode_decodeSaReply]
  · obtain ⟨code, -, hr⟩ := decode_trRequest_eq_ok.1 h
    exact encode_decodeTrRequest hr

/-- Settles O6: no row has such an `op`, and a host operation word that is no instruction returns `fail`. -/
theorem illegalOpFails : Obligations.IllegalOpFails := by
  intro s now op a b list rest hop hin
  simp only [step, fetch, hin, decode, decodeHostOp_illegal hop]
  rfl

/-- Settles O23: seven closed words, each evaluated by the decoder. -/
theorem writtenWordsDecode : Obligations.WrittenWordsDecode :=
  ⟨by decide, by decide, by decide, by decide +kernel, by decide +kernel, by decide, by decide⟩

end Sys2Proof.Machine
end

section
/-! PROOFS. The TRAMP receiver, fed a whole frame byte by byte, holds that frame in its buffer and handles it as the
reply that the decoder reads from it (44_tramp_frames.md R136 to R141). -/

namespace Sys2Proof.Machine

/-! One byte. -/

theorem trRxByte_header {c : Config} {e : TrEngine} (hs : e.rx = .waitHeader) (hl : e.rxBuf.length = 16) :
    trRxByte c 0x0F e = .ok { e with rxBuf := e.rxBuf.set 0 0x0F, rxCount := 1, rx := .waitResponseCode } := by
  have hw : memWrite e.rxBuf 0 0x0F = .ok (e.rxBuf.set 0 0x0F) := memWrite_eq_ok.2 ⟨by omega, rfl⟩
  simp only [trRxByte, hs, trRxHeader, if_true, hw, ok_bind, pure_eq_ok]

theorem trRxByte_code {c : Config} {code : Byte} {e : TrEngine} (hs : e.rx = .waitResponseCode)
    (hcode : code ∈ trReplyCodes) (hl : e.rxBuf.length = 16) :
    trRxByte c code e = .ok { e with rxBuf := e.rxBuf.set 1 code, rxCount := 2, rx := .accumulateData } := by
  have hw : memWrite e.rxBuf 1 code = .ok (e.rxBuf.set 1 code) := memWrite_eq_ok.2 ⟨by omega, rfl⟩
  simp only [trRxByte, hs, trRxCode, if_pos hcode, hw, ok_bind, pure_eq_ok]

/-- A data byte is stored at the count, and the sixteenth byte of the frame has it validated (R139). -/
theorem trRxByte_data {c : Config} {e : TrEngine} (hs : e.rx = .accumulateData) (hi : e.rxCount < e.rxBuf.length)
    (d : Byte) : trRxByte c d e =
      if e.rxCount + 1 = 16 then trValidate c { e with rxBuf := e.rxBuf.set e.rxCount d, rxCount := e.rxCount + 1 }
      else .ok { e with rxBuf := e.rxBuf.set e.rxCount d, rxCount := e.rxCount + 1 } := by
  have hw : memWrite e.rxBuf e.rxCount d = .ok (e.rxBuf.set e.rxCount d) := memWrite_eq_ok.2 ⟨hi, rfl⟩
  simp only [trRxByte, hs, trRxData, hw, ok_bind, pure_eq_ok, trFrameLen]

theorem trValidate_of_valid {c : Config} {e : TrEngine} (hchk : e.rxBuf[14]? = some (trampChecksum e.rxBuf))
    (hterm : e.rxBuf[15]? = some 0x00) :
    trValidate c e = .ok (trDispatch e.rxBuf { e with rx := .waitHeader, rxCount := 0 }) := by
  simp [trValidate, memRead_eq_ok.2 hchk, memRead_eq_ok.2 hterm]

/-! A whole frame. -/

theorem trRxList_cons_of_ok {c : Config} {d : Byte} {e e' : TrEngine} (ds : List Byte) (h : trRxByte c d e = .ok e') :
    trRxList c (d :: ds) e = trRxList c ds e' := by
  simp [trRxList, h]

theorem trRxList_singleton (c : Config) (d : Byte) (e : TrEngine) : trRxList c [d] e = trRxByte c d e := by
  simp only [trRxList]
  cases trRxByte c d e <;> rfl

/-- The bytes of a frame after those that are stored already overwrite the rest of the buffer. -/
theorem trRxList_data {c : Config} {ds : List Byte} {e : TrEngine} {stored rest : List Byte} (hne : ds ≠ [])
    (hs : e.rx = .accumulateData) (hbuf : e.rxBuf = stored ++ rest) (hcount : e.rxCount = stored.length)
    (hrest : rest.length = ds.length) (hlen : stored.length + ds.length = 16) :
    trRxList c ds e = trValidate c { e with rxBuf := stored ++ ds, rxCount := 16 } := by
  induction ds generalizing e stored rest with
  | nil => exact absurd rfl hne
  | cons d ds ih =>
    obtain ⟨old, rest, rfl⟩ := List.exists_cons_of_length_eq_add_one hrest
    have hset : e.rxBuf.set e.rxCount d = stored ++ d :: rest := by simp [hbuf, hcount]
    have hbyte := trRxByte_data (c := c) hs (by simp [hbuf, hcount]) d
    rw [hset, hcount] at hbyte
    cases ds with
    | nil =>
      obtain rfl : rest = [] := by simpa using hrest
      have hlast : stored.length + 1 = 16 := by simpa using hlen
      rw [if_pos hlast, hlast] at hbyte
      rw [trRxList_singleton, hbyte]
    | cons d' ds =>
      rw [if_neg (by simp only [List.length_cons] at hlen; omega)] at hbyte
      rw [trRxList_cons_of_ok _ hbyte]
      have hnext := ih (e := { e with rxBuf := stored ++ d :: rest, rxCount := stored.length + 1 })
        (stored := stored ++ [d]) (rest := rest) (by simp) hs (by simp) (by simp) (by simpa using hrest)
        (by simp only [List.length_append, List.length_cons, List.length_nil] at hlen ⊢; omega)
      simpa using hnext

/-- A frame with a recognised code, received from the first state, stands in the buffer when it is validated. -/
theorem trRxList_frame {c : Config} {code : Byte} {d : List Byte} {e : TrEngine} (hcode : code ∈ trReplyCodes)
    (hd : d.length = 14) (hs : e.rx = .waitHeader) (hl : e.rxBuf.length = 16) :
    trRxList c (0x0F :: code :: d) e =
      trValidate c { e with rxBuf := 0x0F :: code :: d, rxCount := 16, rx := .accumulateData } := by
  have hhead := trRxByte_header (c := c) hs hl
  have hbyte1 := trRxByte_code (c := c)
    (e := { e with rxBuf := e.rxBuf.set 0 0x0F, rxCount := 1, rx := .waitResponseCode }) rfl hcode (by simpa using hl)
  rw [trRxList_cons_of_ok _ hhead, trRxList_cons_of_ok _ hbyte1]
  obtain ⟨b0, buf, hbuf⟩ := List.exists_cons_of_length_eq_add_one hl
  obtain ⟨b1, buf, rfl⟩ := List.exists_cons_of_length_eq_add_one (by simpa [hbuf] using hl : buf.length = 14 + 1)
  refine trRxList_data (stored := [0x0F, code]) (rest := buf) ?_ rfl ?_ rfl ?_ ?_
  · rintro rfl; cases hd
  · simp only [hbuf, List.set_cons_zero, List.set_cons_succ, List.cons_append, List.nil_append]
  · simp only [hbuf, List.length_cons] at hl; omega
  · simp only [List.length_cons, List.length_nil, hd]

/-! The reply in a frame. -/

theorem decodeTrReply_code {code : Byte} {f : List Byte} {i : Instr} (h : decodeTrReply code f = .ok i) :
    code ∈ trReplyCodes := by
  rcases decodeTrReply_ok h with ⟨rfl, -⟩ | ⟨rfl, -⟩ | ⟨rfl, -⟩ <;> simp [trReplyCodes]

theorem parseTrFrame_eq_cons {f : List Byte} {code : Byte} (h : parseTrFrame f = .ok code) :
    ∃ d, f = 0x0F :: code :: d ∧ d.length = 14 := by
  obtain ⟨hl, h0, -, -, hcode⟩ := parseTrFrame_eq_ok.1 h
  obtain ⟨b0, f, rfl⟩ := List.exists_cons_of_length_eq_add_one hl
  obtain ⟨b1, d, rfl⟩ := List.exists_cons_of_length_eq_add_one (by simpa using hl : f.length = 14 + 1)
  obtain rfl : b0 = 0x0F := by simpa using h0
  obtain rfl : b1 = code := by simpa using hcode
  exact ⟨d, rfl, by simpa using hl⟩

/-- The dispatch of a frame does what the reply that the decoder reads from it does (R141). -/
theorem exec_decodeTrReply {f : List Byte} {i : Instr} (h : decodeTrReply (f.getD 1 0) f = .ok i) (s : State)
    (e : TrEngine) :
    exec i { s with engine := .tramp e } = .next { s with engine := .tramp (trDispatch f e) } := by
  unfold trDispatch
  rcases decodeTrReply_ok h with ⟨-, rfl⟩ | ⟨-, rfl⟩ | ⟨-, rfl⟩ <;> rw [h] <;> rfl

/-- Settles O45: a frame that the decoder accepts is received whole and is valid, and its dispatch is the reply's
rule. -/
theorem trampReceiverDecodesReply : Obligations.TrampReceiverDecodesReply := by
  intro s e i f he hwf hs hdec
  obtain ⟨⟨hl, hcount, -, -⟩, -⟩ := hwf
  obtain ⟨code, hparse, hreply⟩ := decode_trReply_eq_ok.1 hdec
  obtain ⟨-, -, hchk, hterm, hcode⟩ := parseTrFrame_eq_ok.1 hparse
  obtain ⟨d, rfl, hd⟩ := parseTrFrame_eq_cons hparse
  refine ⟨_, ?_, exec_decodeTrReply (hcode ▸ hreply) s _⟩
  rw [trRxList_frame (decodeTrReply_code hreply) hd hs hl, trValidate_of_valid hchk hterm, ← hs, ← hcount hs]

end Sys2Proof.Machine
end

section
/-! PROOFS. The TX stream reads well after every step (46_host_ops.md R156, R158): a configuration request is one of the
protocol of the engine that INIT creates, and each frame that POLL or a setter sends is a request of the block, in the
protocol of the engine that sends it (30_encoding.md R74, R76, R81, R82). -/

namespace Sys2Proof.Machine

/-! The scan of a stream. -/

/-- A stream that reads well is read on from the protocol that it ends with. -/
theorem txScan_append {c : Config} {p p' : Option Proto} {l : List TxEvent} (h : txScan c p l = some p')
    (r : List TxEvent) : txScan c p (l ++ r) = txScan c p' r := by
  fun_induction txScan c p l with
  | case1 p => cases h; rfl
  | case2 p baud dataBits stopBits parity l q hq ih =>
    simp only [List.cons_append, txScan, hq]
    exact ih h
  | case3 => cases h
  | case4 p z f l hz ih =>
    simp only [List.cons_append, txScan, if_pos hz]
    exact ih h
  | case5 => cases h
  | case6 => cases h

theorem txScan_frame {c : Config} {p : Proto} {f : List Byte} (hf : isRequestOf c f p = true) :
    txScan c (some p) [.group (0x00 :: f), .flush] = some (some p) := by
  simp [txScan, hf]

/-- `TxWf` with the engine's protocol in place of a match on the slot. -/
theorem txWf_iff {s : State} :
    s.TxWf ↔ ∃ p, txScan s.cfg none s.tx = some p ∧ ∀ q, engineProto s.engine = some q → p = some q := by
  unfold State.TxWf
  cases s.engine <;> simp [engineProto]

/-! Frames that are requests of the block. -/

/-- Every frame handed over to be sent is a request of the block, in the protocol `p`. -/
def SendsOwn (c : Config) (p : Proto) (f : Option (List Byte)) : Prop := ∀ x, f = some x → isRequestOf c x p = true

theorem SendsOwn.nothing (c : Config) (p : Proto) : SendsOwn c p none := nofun

theorem SendsOwn.frame {c : Config} {p : Proto} {x : List Byte} (h : isRequestOf c x p = true) :
    SendsOwn c p (some x) := by
  rintro _ ⟨⟩
  exact h

/-- The encoding of a request that the block sends is a frame that its decoder reads back as that request. -/
theorem isRequestOf_of_encode {c : Config} {i : Instr} {p : Proto} {f : List Byte} (hc : c.Valid)
    (hw : i.wellFormed c = true) (hf : encode c i = requestWord p f) (hi : isSentRequest c i = true) :
    isRequestOf c f p = true := by
  simp only [isRequestOf, ← hf, decodeOfEncode c i hc hw, hi]

/-! What the SmartAudio engine sends. -/

/-- The front entry of a live queue is a valid slot (10_state.md R32). -/
theorem isRequestOf_front {c : Config} {q : SaQueue} {x : Slot} (hq : q.Wf c) (hpos : 0 < q.count)
    (hx : q.slots[q.head]? = some x) : isRequestOf c x.bytes .sa = true := by
  obtain ⟨hl, hh, -, hlive⟩ := hq
  have hfront : (queueEntries q).head? = some x := by rw [queueEntries_head? hl hh, if_pos hpos, hx]
  have hvalid := hlive x (List.mem_of_head? hfront)
  simp only [slotValid, Bool.and_eq_true] at hvalid
  exact hvalid.1

/-- The scheduler sends the front entry, or nothing (43_sa_engine.md R124). -/
theorem saOutbound_sendsOwn {c : Config} {now : Nat} {e e' : SaEngine} {f : Option (List Byte)} (he : e.Wf c)
    (h : saOutbound c now e = .ok (e', f)) : SendsOwn c .sa f := by
  obtain ⟨hq, -⟩ := id he
  rcases saOutbound_ok h with ⟨ho, -, x, hx, -, rfl⟩ | ⟨-, hpos, x, hx, -, rfl⟩ | ⟨-, -, -, -, -, -, -, rfl⟩ | ⟨-, rfl⟩
  · exact .frame (isRequestOf_front hq (he.count_pos ho) hx)
  · exact .frame (isRequestOf_front hq hpos hx)
  · exact .nothing c _
  · exact .nothing c _

theorem saPoll_sendsOwn {c : Config} {now : Nat} {rx : List Byte} {e e' : SaEngine} {f : Option (List Byte)}
    (hc : c.Valid) (he : e.Wf c) (h : saPoll c now rx e = .ok (e', f)) : SendsOwn c .sa f := by
  obtain ⟨e1, e2, h1, h2, h3⟩ := saPoll_eq_ok.1 h
  exact saOutbound_sendsOwn (saInitStep_wf hc (saRxList_wf he h1) h2) h3

/-! What the TRAMP engine sends. -/

theorem trWrite_sendsOwn {c : Config} {f : List Byte} (hf : isRequestOf c f .tramp = true) (now : Nat) (e : TrEngine) :
    SendsOwn c .tramp (trWrite c now f e).2 := by
  rcases trWrite_cases c now f e with ⟨-, h⟩ | ⟨-, h⟩ <;> rw [h]
  · exact .nothing c _
  · exact .frame hf

section Valid
variable {c : Config} (hc : c.Valid)
include hc

theorem isRequestOf_trResetQuery : isRequestOf c trResetQueryFrame .tramp = true :=
  isRequestOf_of_encode (i := .trResetQuery) hc rfl rfl rfl

theorem isRequestOf_trStatusQuery : isRequestOf c trStatusQueryFrame .tramp = true :=
  isRequestOf_of_encode (i := .trStatusQuery) hc rfl rfl rfl

theorem isRequestOf_trTempQuery : isRequestOf c trTempQueryFrame .tramp = true :=
  isRequestOf_of_encode (i := .trTempQuery) hc rfl rfl rfl

theorem isRequestOf_trSetFrequency (f : Half) : isRequestOf c (trSetFrequencyFrame f) .tramp = true :=
  isRequestOf_of_encode (i := .trSetFrequency f) hc rfl rfl rfl

theorem isRequestOf_trSetPower (mw : Half) : isRequestOf c (trSetPowerFrame mw) .tramp = true :=
  isRequestOf_of_encode (i := .trSetPower mw) hc rfl rfl rfl

theorem isRequestOf_trSetActive (pitOn : Bool) : isRequestOf c (trSetActiveFrame c pitOn) .tramp = true :=
  isRequestOf_of_encode (i := .trSetActive pitOn) hc rfl rfl rfl

theorem trCorrection_sendsOwn (e : TrEngine) : SendsOwn c .tramp (trCorrection c e) := by
  unfold trCorrection
  split
  · exact .frame (isRequestOf_trSetFrequency hc _)
  split
  · exact .frame (isRequestOf_trSetPower hc _)
  split
  · exact .frame (isRequestOf_trSetActive hc _)
  · exact .nothing c _

theorem trMonitorPoll_sendsOwn (now : Nat) (e : TrEngine) : SendsOwn c .tramp (trMonitorPoll c now e).2 := by
  rcases trMonitorPoll_cases c now e with ⟨-, h⟩ | ⟨-, h⟩ <;> rw [h]
  · exact .frame (isRequestOf_trStatusQuery hc)
  · exact .nothing c _

theorem trMonitor_sendsOwn (now : Nat) (e : TrEngine) : SendsOwn c .tramp (trMonitor c now e).2 := by
  rcases trMonitor_cases c now e with ⟨f, -, hf, h⟩ | ⟨-, -, h⟩ | ⟨-, h⟩ <;> rw [h]
  · exact hf ▸ trCorrection_sendsOwn hc e
  · exact trMonitorPoll_sendsOwn hc now _
  · exact trMonitorPoll_sendsOwn hc now _

theorem trStep_sendsOwn (now : Nat) (e : TrEngine) : SendsOwn c .tramp (trStep c now e).2 := by
  rcases trStep_cases c now e with ⟨-, -, h⟩ | ⟨-, -, h⟩ | ⟨-, -, h⟩ | ⟨-, -, h⟩ | ⟨-, -, h⟩ | h <;> rw [h]
  · exact .frame (isRequestOf_trResetQuery hc)
  · exact .frame (isRequestOf_trStatusQuery hc)
  · exact trMonitor_sendsOwn hc now e
  · exact .frame (isRequestOf_trTempQuery hc)
  · exact .frame (isRequestOf_trStatusQuery hc)
  · exact .nothing c _

theorem trSetFrequency_sendsOwn {now : Nat} {v : Half} {e e' : TrEngine} {f : Option (List Byte)}
    (h : trSetFrequency c now v e = some (e', f)) : SendsOwn c .tramp f := by
  unfold trSetFrequency at h
  split at h
  · obtain ⟨-, rfl⟩ := Prod.ext_iff.1 (Option.some.inj h)
    exact trWrite_sendsOwn (isRequestOf_trSetFrequency hc v) now _
  · cases h

theorem trSetPower_sendsOwn {now : Nat} {mw : Half} {e e' : TrEngine} {f : Option (List Byte)}
    (h : trSetPower c now mw e = some (e', f)) : SendsOwn c .tramp f := by
  obtain ⟨-, rfl⟩ := Prod.ext_iff.1 (Option.some.inj h)
  exact trWrite_sendsOwn (isRequestOf_trSetPower hc mw) now _

theorem trSetPitMode_sendsOwn {now : Nat} {on : Bool} {e e' : TrEngine} {f : Option (List Byte)}
    (h : trSetPitMode c now on e = some (e', f)) : SendsOwn c .tramp f := by
  obtain ⟨-, rfl⟩ := Prod.ext_iff.1 (Option.some.inj h)
  exact .frame (isRequestOf_trSetActive hc on)

end Valid

/-! What a step does to the stream. -/

/-- The engine slot keeps its protocol, and what is sent is a request of that protocol. -/
structure TxEffect (s t : State) : Prop where
  cfg : t.cfg = s.cfg
  engine : engineProto t.engine = engineProto s.engine
  tx : t.tx = s.tx ∨ ∃ p f, engineProto s.engine = some p ∧ isRequestOf s.cfg f p = true ∧
    t.tx = s.tx ++ [.group (0x00 :: f), .flush]

theorem TxEffect.txWf {s t : State} (h : TxEffect s t) (hs : s.TxWf) : t.TxWf := by
  obtain ⟨p, hscan, hp⟩ := txWf_iff.1 hs
  refine txWf_iff.2 ⟨p, ?_, by rwa [h.engine]⟩
  rw [h.cfg]
  rcases h.tx with htx | ⟨q, f, hq, hf, htx⟩ <;> rw [htx]
  · exact hscan
  · rw [txScan_append hscan, hp q hq, txScan_frame hf]

/-- Nothing is sent and no configuration is requested. -/
theorem TxEffect.of_silent {s t : State} (hc : t.cfg = s.cfg) (he : engineProto t.engine = engineProto s.engine)
    (htx : t.tx = s.tx) : TxEffect s t := ⟨hc, he, .inl htx⟩

/-- An engine's rule leaves an engine of its protocol and hands over a frame of it, if any. -/
theorem TxEffect.of_txSent {s : State} {g : Engine} {p : Proto} {f : Option (List Byte)}
    (hs : engineProto s.engine = some p) (hg : engineProto g = some p) (hf : SendsOwn s.cfg p f) :
    TxEffect s (retOk (txSent f (setEngine g s))) := by
  refine ⟨by simp, by simp [hs, hg], ?_⟩
  cases f with
  | none => exact .inl rfl
  | some f => exact .inr ⟨p, f, hs, hf f rfl, rfl⟩

theorem txEffect_of_poll {rx : List Byte} {s t : State} (hs : s.Inv) (h : execPoll rx s = .next t) : TxEffect s t := by
  rcases execPoll_next h with ⟨-, rfl⟩ | ⟨e, e', f, he, hp, rfl⟩ | ⟨e, e', f, he, hp, rfl⟩
  · exact .of_silent rfl rfl rfl
  · exact .of_txSent (p := .sa) (by rw [he]; rfl) rfl (saPoll_sendsOwn hs.1 (hs.sa_wf he) hp)
  · obtain ⟨e1, -, heq⟩ := trPoll_eq_ok.1 hp
    obtain ⟨-, rfl⟩ := Prod.ext_iff.1 heq
    exact .of_txSent (p := .tramp) (by rw [he]; rfl) rfl (trStep_sendsOwn hs.1 s.now e1)

/-- A SmartAudio setter sends nothing, a TRAMP setter a request (43_sa_engine.md R128, 45_tramp_engine.md R150). -/
theorem txEffect_of_setter {i : Instr} {sa : Config → SaEngine → Except Fault (Option SaEngine)}
    {tramp : Config → Nat → TrEngine → Option (TrEngine × Option (List Byte))} (hi : Setter i sa tramp) {s t : State}
    (htr : ∀ e e' f, tramp s.cfg s.now e = some (e', f) → SendsOwn s.cfg .tramp f) (h : exec i s = .next t) :
    TxEffect s t := by
  cases hs : s.engine with
  | none =>
    cases (hi.none s hs).symm.trans h
    exact .of_silent rfl rfl rfl
  | sa e =>
    rcases finishSaSetter_next ((hi.sa s e hs).symm.trans h) with ⟨-, rfl⟩ | ⟨e', -, rfl⟩
    · exact .of_silent rfl rfl rfl
    · exact .of_txSent (f := none) (p := .sa) (by rw [hs]; rfl) rfl (.nothing _ _)
  | tramp e =>
    rcases finishTrSetter_next ((hi.tramp s e hs).symm.trans h) with ⟨-, rfl⟩ | ⟨e', f, hf, rfl⟩
    · exact .of_silent rfl rfl rfl
    · exact .of_txSent (p := .tramp) (by rw [hs]; rfl) rfl (htr e e' f hf)

theorem TxEffect.of_query {s t : State} (h : ∃ ok data, t = ret ok data s) : TxEffect s t := by
  obtain ⟨ok, data, rfl⟩ := h
  exact .of_silent rfl rfl rfl

theorem txEffect_of_frameRow {i : Instr} {s t : State} (hi : FrameRow i) (h : exec i s = .next t) : TxEffect s t :=
  .of_silent (exec_effect h).cfg (keepsEngine_of_frameRow hi h).engine (frameRow_tx hi h)

/-- An instruction that neither creates nor discards an engine sends at most a request of the engine's protocol. -/
theorem exec_txEffect {i : Instr} {s t : State} (hs : s.Inv) (hi : replacesEngine i = false) (h : exec i s = .next t) :
    TxEffect s t := by
  cases i with
  | init present =>
    cases hi
    cases h
    exact .of_silent rfl rfl rfl
  | poll rx => exact txEffect_of_poll hs h
  | isReady => exact .of_query (execIsReady_next h)
  | setFreq mhz => exact txEffect_of_setter (setter_setFreq mhz) (fun _ _ _ => trSetFrequency_sendsOwn hs.1) h
  | setPower mw => exact txEffect_of_setter (setter_setPower mw) (fun _ _ _ => trSetPower_sendsOwn hs.1) h
  | setPit enable => exact txEffect_of_setter (setter_setPit enable) (fun _ _ _ => trSetPitMode_sendsOwn hs.1) h
  | setBandCh band channel =>
    exact txEffect_of_setter (setter_setBandCh band channel) (fun _ _ _ hf => by cases hf) h
  | switchProtocol sel => cases hi
  | protocolInUse => cases h; exact .of_query ⟨_, _, rfl⟩
  | bandChToFreq band channel => cases h; exact .of_query ⟨_, _, rfl⟩
  | crc8 m => cases h; exact .of_query ⟨_, _, rfl⟩
  | trampChecksum f => exact .of_query (execTrampChecksum_next h)
  | regRead id =>
    rcases execRegRead_next h with ⟨-, rfl⟩ | ⟨v, -, rfl⟩
    · exact .of_query ⟨_, _, rfl⟩
    · exact .of_query ⟨_, _, rfl⟩
  | saValidate m => exact .of_query (execSaValidate_next h)
  | trampValidate f => exact .of_query (execTrampValidate_next h)
  | _ => exact txEffect_of_frameRow (frameRow_of_not_hostOp rfl) h

/-- INIT requests the configuration of the protocol of the engine that it creates (R158). -/
theorem createEngine_txWf {s : State} (hs : s.TxWf) : (createEngine s).TxWf := by
  obtain ⟨p, hscan, -⟩ := txWf_iff.1 hs
  unfold createEngine
  cases s.proto with
  | sa =>
    refine txWf_iff.2 ⟨some .sa, (txScan_append hscan _).trans rfl, ?_⟩
    rintro q ⟨⟩
    rfl
  | tramp =>
    refine txWf_iff.2 ⟨some .tramp, (txScan_append hscan _).trans rfl, ?_⟩
    rintro q ⟨⟩
    rfl

theorem exec_txWf {i : Instr} {s t : State} (hinv : s.Inv) (hs : s.TxWf) (h : exec i s = .next t) : t.TxWf := by
  cases hi : replacesEngine i with
  | false => exact (exec_txEffect hinv hi h).txWf hs
  | true =>
    cases i with
    | init present =>
      cases hi
      cases h
      exact createEngine_txWf hs
    | switchProtocol sel =>
      cases h
      obtain ⟨p, hscan, -⟩ := txWf_iff.1 hs
      exact txWf_iff.2 ⟨p, hscan, nofun⟩
    | _ => cases hi

/-- A word that is no instruction sends nothing (30_encoding.md R72, R79, R84). -/
theorem rejectWord_txEffect {x : InWord} {s t : State} (h : rejectWord x s = .next t) : TxEffect s t := by
  cases x with
  | hostOp op a b list => cases h; exact .of_silent rfl rfl rfl
  | saRequest f => rcases buildSa_next h with ⟨-, rfl⟩ | ⟨-, rfl⟩ <;> exact .of_silent rfl rfl rfl
  | saReply f =>
    rcases onSa_next h with ⟨-, rfl⟩ | ⟨e, e', he, -, rfl⟩
    · exact .of_silent rfl rfl rfl
    · exact .of_silent rfl (by rw [he]; rfl) rfl
  | trRequest f => rcases buildTr_next h with ⟨-, rfl⟩ | ⟨-, rfl⟩ <;> exact .of_silent rfl rfl rfl
  | trReply f =>
    rcases onTr_next h with ⟨-, rfl⟩ | ⟨e, e', he, -, rfl⟩
    · exact .of_silent rfl rfl rfl
    · exact .of_silent rfl (by rw [he]; rfl) rfl

/-- Settles O57: no event stands in the stream after reset; a step is idle, or takes its stimulus, which leaves stream
and engine as they are, and then what it appends is of the engine's protocol. -/
theorem stepKeepsTxWellFormed : Obligations.StepKeepsTxWellFormed := by
  refine ⟨fun c => txWf_iff.2 ⟨none, rfl, nofun⟩, fun s t hinv hs h => ?_⟩
  cases hin : s.input with
  | nil =>
    rw [step_of_no_input hin] at h
    cases h
    exact hs
  | cons x rest =>
    have htaken : (takeStimulus x.now rest s).TxWf := hs
    simp only [step, fetch, hin] at h
    cases hd : decode s.cfg x.word with
    | ok i => simp only [hd] at h; exact exec_txWf (takeStimulus_inv hinv) htaken h
    | error r => simp only [hd] at h; exact (rejectWord_txEffect h).txWf htaken

end Sys2Proof.Machine
end

section
/-! PROOFS. The band and channel operations: the lookup in the frequency table (40_freq_table.md R88) and the SmartAudio
setter, which sends the channel index (R89, 43_sa_engine.md R132). -/

namespace Sys2Proof.Machine

/-! A band and a channel. -/

theorem bandChannelInRange_iff {band channel : Byte} :
    bandChannelInRange band channel = true ↔
      1 ≤ band.toNat ∧ band.toNat ≤ 5 ∧ 1 ≤ channel.toNat ∧ channel.toNat ≤ 8 :=
  decide_eq_true_iff

/-- A row and a column of the table, counted from 0, are a band and a channel in range (R87). -/
theorem inRange_of_entry {band channel : Byte} {b : Fin 5} {ch : Fin 8} (hb : band.toNat = b + 1)
    (hch : channel.toNat = ch + 1) : 1 ≤ band.toNat ∧ band.toNat ≤ 5 ∧ 1 ≤ channel.toNat ∧ channel.toNat ≤ 8 := by
  omega

theorem bandChFreq_of_entry {c : Config} {band channel : Byte} {b : Fin 5} {ch : Fin 8} (hb : band.toNat = b + 1)
    (hch : channel.toNat = ch + 1) : bandChFreq c band channel = (c.freqTable[b])[ch] := by
  rw [bandChFreq, dif_pos (inRange_of_entry hb hch)]
  simp [hb, hch]

theorem bandChFreq_of_not_inRange {c : Config} {band channel : Byte}
    (h : ¬ (1 ≤ band.toNat ∧ band.toNat ≤ 5 ∧ 1 ≤ channel.toNat ∧ channel.toNat ≤ 8)) :
    bandChFreq c band channel = 0 :=
  dif_neg h

theorem channelIndex_of_entry {band channel idx : Byte} {b : Fin 5} {ch : Fin 8} (hb : band.toNat = b + 1)
    (hch : channel.toNat = ch + 1) (hidx : idx.toNat = b * 8 + ch) : channelIndex band channel = idx := by
  rw [channelIndex, hb, hch, Nat.add_sub_cancel, Nat.add_sub_cancel, ← hidx, BitVec.ofNat_toNat, BitVec.setWidth_eq]

/-! The lookup. -/

/-- BAND_CH_TO_FREQ answers `ok` with the table's value or the sentinel (R88). -/
theorem exec_bandChToFreq {band channel : Byte} {f : Half} {s : State} (h : bandChFreq s.cfg band channel = f) :
    exec (.bandChToFreq band channel) s = .next { s with result := some ⟨true, BitVec.ofNat 32 f.toNat⟩ } := by
  show execBandChToFreq band channel s = _
  rw [execBandChToFreq, h, zext_eq_ofNat]
  rfl

/-- Settles O19: in range by the entry of the table, out of range by the sentinel; Raceband channel 3 is the entry of
row 4 and column 2. -/
theorem bandChannelLookup : Obligations.BandChannelLookup := by
  refine fun s band channel => ⟨fun b ch hb hch => ?entry, fun hout => ?outOfRange, fun hcfg => ?raceband3⟩
  case entry => exact exec_bandChToFreq (bandChFreq_of_entry hb hch)
  case outOfRange => exact exec_bandChToFreq (bandChFreq_of_not_inRange hout)
  case raceband3 =>
    have hft : bandChFreq s.cfg 5 3 = 5732 := by
      rw [hcfg, bandChFreq_of_entry (b := 4) (ch := 2) rfl rfl]
      rfl
    exact exec_bandChToFreq hft

/-! The setter. -/

/-- A refused SmartAudio setter fails and changes nothing else (R13). -/
theorem finishSaSetter_none (s : State) :
    finishSaSetter (.ok none) s = .next { s with result := some ⟨false, 0⟩ } := rfl

/-- An accepted SmartAudio setter returns `ok` and enqueues its request, which a full queue drops (43_sa_engine.md
R119, R128). -/
theorem finishSaSetter_saSend {f : List Byte} {id : CmdId} {e : SaEngine} (s : State) (hl : e.q.slots.length = 4) :
    finishSaSetter (saSend f id e) s = .next { s with
      engine := .sa { e with q := if e.q.count = 4 then e.q else { e.q with
        slots := e.q.slots.set ((e.q.head + e.q.count) % 4) ⟨id, f⟩
        count := e.q.count + 1 } }
      result := some ⟨true, 0⟩ } := by
  rw [saSend, saEnqueue_eq hl]
  rfl

theorem saSetBandCh_of_not_inRange {band channel : Byte} {e : SaEngine}
    (h : ¬ (1 ≤ band.toNat ∧ band.toNat ≤ 5 ∧ 1 ≤ channel.toNat ∧ channel.toNat ≤ 8)) :
    saSetBandCh band channel e = .ok none :=
  if_neg (mt bandChannelInRange_iff.1 h)

theorem saSetBandCh_of_entry {band channel idx : Byte} {b : Fin 5} {ch : Fin 8} {e : SaEngine}
    (hb : band.toNat = b + 1) (hch : channel.toNat = ch + 1) (hidx : idx.toNat = b * 8 + ch) :
    saSetBandCh band channel e = saSend (saSetChannelFrame idx) saIdSetChannel e := by
  rw [saSetBandCh, if_pos (bandChannelInRange_iff.2 (inRange_of_entry hb hch)), channelIndex_of_entry hb hch hidx]

/-- Settles O30: SET_BANDCH is the engine's setter, which refuses a pair out of range and sends the SET_CHANNEL frame of
the index for one in range. -/
theorem smartAudioSetBandCh : Obligations.SmartAudioSetBandCh := by
  intro s e band channel hs hl
  have hexec : exec (.setBandCh band channel) s = finishSaSetter (saSetBandCh band channel e) s :=
    (setter_setBandCh band channel).sa s e hs
  refine ⟨fun hout => ?outOfRange, fun b ch idx hb hch hidx => ?entry⟩
  case outOfRange => rw [hexec, saSetBandCh_of_not_inRange hout, finishSaSetter_none]
  case entry =>
    rw [hexec, saSetBandCh_of_entry hb hch hidx, finishSaSetter_saSend s hl]
    rfl

end Sys2Proof.Machine
end

section
/-! PROOFS. The CRC over bytes (41_checksum.md R90 to R93): a shift is linear over GF(2) and loses nothing, so the CRC
is linear and detects every change of one byte; and what CRC8 and SA_VALIDATE answer. -/

namespace Sys2Proof.Machine

/-! Linearity. -/

/-- A shift, with the generator taken off as an exclusive-or that may be with 0. -/
theorem crcBit_eq_xor (c : Byte) : crcBit c = (c <<< 1) ^^^ if c.getLsbD 7 then 0xD5 else 0 := by
  unfold crcBit
  split <;> simp

theorem crcBit_xor (a b : Byte) : crcBit (a ^^^ b) = crcBit a ^^^ crcBit b := by
  have hgen : (if (a ^^^ b).getLsbD 7 then (0xD5 : Byte) else 0) =
      (if a.getLsbD 7 then 0xD5 else 0) ^^^ (if b.getLsbD 7 then 0xD5 else 0) := by
    rw [BitVec.getLsbD_xor]
    cases a.getLsbD 7 <;> cases b.getLsbD 7 <;> rfl
  simp only [crcBit_eq_xor, BitVec.shiftLeft_xor_distrib, hgen]
  ac_rfl

theorem crcShifts_xor (n : Nat) (a b : Byte) : crcShifts n (a ^^^ b) = crcShifts n a ^^^ crcShifts n b := by
  induction n generalizing a b with
  | zero => rfl
  | succ n ih => simp only [crcShifts, crcBit_xor, ih]

theorem crcByte_xor (a b d d' : Byte) : crcByte (a ^^^ b) (d ^^^ d') = crcByte a d ^^^ crcByte b d' := by
  simp only [crcByte, ← crcShifts_xor]
  congr 1
  ac_rfl

/-- Linearity from any pair of initial values, which the induction over the strings needs. -/
theorem foldl_crcByte_xor {m m' : List Byte} (h : m.length = m'.length) (a b : Byte) :
    (List.zipWith (· ^^^ ·) m m').foldl crcByte (a ^^^ b) = m.foldl crcByte a ^^^ m'.foldl crcByte b := by
  induction m generalizing m' a b with
  | nil =>
    obtain rfl := List.length_eq_zero_iff.1 h.symm
    rfl
  | cons d m ih =>
    obtain ⟨d', m', rfl⟩ := List.exists_cons_of_length_eq_add_one h.symm
    simp only [List.zipWith_cons_cons, List.foldl_cons, crcByte_xor]
    exact ih (Nat.succ.inj h) _ _

/-- Settles O13: the CRC register meets its own value in the trailer and becomes 0; each byte's step is linear. -/
theorem crcSelfCheckAndLinearity : Obligations.CrcSelfCheckAndLinearity :=
  ⟨crc8_nil, fun m => by rw [crc8_snoc, crcByte_self], fun _ _ h => foldl_crcByte_xor h 0 0⟩

/-! A changed byte. -/

/-- The generator is odd, so a shift keeps the bit that it shifts out: it stands in bit 0. -/
theorem crcBit_getLsbD_zero (c : Byte) : (crcBit c).getLsbD 0 = c.getLsbD 7 := by
  rw [crcBit_eq_xor, BitVec.getLsbD_xor, BitVec.getLsbD_shiftLeft]
  cases c.getLsbD 7 <;> rfl

theorem crcBit_injective : Function.Injective crcBit := by
  intro a b h
  have htop : a.getLsbD 7 = b.getLsbD 7 := by rw [← crcBit_getLsbD_zero, h, crcBit_getLsbD_zero]
  have hshift : a <<< 1 = b <<< 1 := by
    simpa only [crcBit_eq_xor, htop, BitVec.xor_left_inj] using h
  refine BitVec.eq_of_getElem_eq fun i hi => ?_
  obtain hlow | rfl : i < 7 ∨ i = 7 := by omega
  · have hnext : i + 1 < 8 := by omega
    simpa [BitVec.getLsbD_shiftLeft, hnext] using congrArg (·.getLsbD (i + 1)) hshift
  · exact htop

theorem crcShifts_injective (n : Nat) : Function.Injective (crcShifts n) := by
  induction n with
  | zero => exact fun _ _ h => h
  | succ n ih => exact ih.comp crcBit_injective

theorem crcByte_left_injective (d : Byte) : Function.Injective (crcByte · d) :=
  fun _ _ h => (BitVec.xor_left_inj _).1 (crcShifts_injective 8 h)

theorem crcByte_right_injective (c : Byte) : Function.Injective (crcByte c) :=
  fun _ _ h => (BitVec.xor_right_inj _).1 (crcShifts_injective 8 h)

theorem foldl_crcByte_injective (m : List Byte) : Function.Injective fun c => m.foldl crcByte c := by
  induction m with
  | nil => exact fun _ _ h => h
  | cons d m ih => exact ih.comp (crcByte_left_injective d)

/-- Changing one byte changes the CRC: its step takes different bytes to different registers, and the later steps keep
different registers apart. -/
theorem crc8_set_ne {l : List Byte} {i : Nat} {v : Byte} (hi : i < l.length) (hv : v ≠ l[i]) :
    crc8 (l.set i v) ≠ crc8 l := by
  intro h
  have hl : l = l.take i ++ l[i] :: l.drop (i + 1) := by simp
  rw [List.set_eq_take_append_cons_drop, if_pos hi] at h
  rw [congrArg crc8 hl, crc8_append, crc8_append] at h
  exact hv (crcByte_right_injective _ (foldl_crcByte_injective _ h))

/-- A string's CRC is 0 exactly when it ends in its own trailer (R91). -/
theorem crc8_snoc_eq_zero {m : List Byte} {t : Byte} : crc8 (m ++ [t]) = 0 ↔ crc8 m = t := by
  rw [crc8_snoc, ← crcByte_self (crc8 m), (crcByte_right_injective _).eq_iff, eq_comm]

/-- A flipped bit makes another byte. -/
theorem xor_bit_ne {k : Nat} (hk : k < 8) (x : Byte) : x ^^^ ((1 : Byte) <<< k) ≠ x := by
  intro h
  simpa [hk] using congrArg (·.getLsbD k) h

/-! The operations. -/

/-- SA_VALIDATE of a string with a trailer (R93). -/
theorem exec_saValidate_snoc (m : List Byte) (t : Byte) (s : State) :
    exec (.saValidate (m ++ [t])) s =
      .next (ret true ((zext (crc8 m) <<< 8) ||| flagWord (decide (crc8 m = t))) s) := by
  show execSaValidate (m ++ [t]) s = _
  simp only [execSaValidate, List.getLast?_concat, List.dropLast_concat]

/-- Settles O14: the string with its trailer has CRC 0, so the changed string has another one, so its own last byte is
not its trailer. -/
theorem crcDetectsSingleBitFlips : Obligations.CrcDetectsSingleBitFlips := by
  intro s m i k h hk
  have hne := crc8_set_ne h (xor_bit_ne hk _)
  rw [crc8_snoc_eq_zero.2 rfl] at hne
  generalize hl : (m ++ [crc8 m]).set i _ = l at hne ⊢
  obtain rfl | ⟨m', t, rfl⟩ := l.eq_nil_or_concat'
  · exact absurd crc8_nil hne
  · refine ⟨_, exec_saValidate_snoc m' t s, ?_⟩
    simp [flagWord, mt crc8_snoc_eq_zero.2 hne]

/-- An integrity byte in bits 15..8 beside flags in bits 7..0 (R93, R97). -/
theorem zext_shiftLeft_or_eq_ofNat (c : Byte) {n : Nat} (hn : n < 2 ^ 8) :
    (zext c <<< 8) ||| BitVec.ofNat 32 n = BitVec.ofNat 32 (c.toNat * 256 + n) := by
  have hshift : zext c <<< 8 = BitVec.ofNat 32 (c.toNat <<< 8) := by
    rw [zext_eq_ofNat, ← BitVec.toNat_inj]
    simp [Nat.shiftLeft_eq]
  rw [hshift, ← BitVec.ofNat_or, ← Nat.shiftLeft_add_eq_or_of_lt hn, Nat.shiftLeft_eq]

/-- Settles O15: the answer words as numbers, the CRC times 256 beside the match. -/
theorem crcOperationsAnswer : Obligations.CrcOperationsAnswer := by
  refine fun s m t => ⟨?crc8, ?trailer, rfl⟩
  case crc8 =>
    show execCrc8 m s = _
    rw [execCrc8, zext_eq_ofNat]
    rfl
  case trailer =>
    rw [exec_saValidate_snoc, flagWord_decide_eq_ofNat, zext_shiftLeft_or_eq_ofNat _ (by split <;> decide)]
    rfl

end Sys2Proof.Machine
end

section
/-! PROOFS. The CRC as a polynomial remainder (41_checksum.md R90): in the ring of polynomials over GF(2) modulo the
generator, the CRC register after a string is the string's polynomial times `x^8`. -/

namespace Sys2Proof.Machine

open Polynomial

/-! Bits and bytes as polynomials. -/

theorem bitsPoly_snoc (l : List Bool) (b : Bool) :
    bitsPoly (l ++ [b]) = bitsPoly l * X + C (if b then 1 else 0) := by
  simp only [bitsPoly, List.foldl_append, List.foldl_cons, List.foldl_nil]

theorem bitsPoly_append (l k : List Bool) : bitsPoly (l ++ k) = bitsPoly l * X ^ k.length + bitsPoly k := by
  induction k using List.reverseRecOn with
  | nil => simp [bitsPoly]
  | append_singleton k b ih =>
    rw [← List.append_assoc, bitsPoly_snoc, bitsPoly_snoc, ih, List.length_append, List.length_singleton]
    ring

/-- The last bit is the lowest power's coefficient. -/
theorem coeff_bitsPoly (l : List Bool) (i : Nat) :
    (bitsPoly l).coeff i = if l.reverse.getD i false then 1 else 0 := by
  induction l using List.reverseRecOn generalizing i with
  | nil => simp [bitsPoly]
  | append_singleton l b ih =>
    rw [bitsPoly_snoc, List.reverse_append]
    cases i with
    | zero => simp [apply_ite (coeff · 0)]
    | succ i => simp only [coeff_add, coeff_mul_X, ih, coeff_C_succ, add_zero]; rfl

theorem byteBits_length (b : Byte) : (byteBits b).length = 8 := by simp [byteBits]

theorem byteBits_reverse_getD (b : Byte) (i : Nat) : (byteBits b).reverse.getD i false = b.getLsbD i := by
  by_cases hi : i < 8
  · have hsub : 7 - (7 - i) = i := by omega
    have hlt : 7 - i < 8 := by omega
    simp [byteBits, List.getD_eq_getElem?_getD, hi, BitVec.getMsbD, hsub, hlt]
  · rw [List.getD_eq_default _ _ (by rw [List.length_reverse, byteBits_length]; omega),
      BitVec.getLsbD_of_ge _ _ (by omega)]

/-- A byte's polynomial has its bits as coefficients. -/
theorem coeff_wirePoly_byte (b : Byte) (i : Nat) : (wirePoly [b]).coeff i = if b.getLsbD i then 1 else 0 := by
  rw [wirePoly, List.flatMap_singleton, coeff_bitsPoly, byteBits_reverse_getD]

theorem wirePoly_snoc (m : List Byte) (t : Byte) : wirePoly (m ++ [t]) = wirePoly m * X ^ 8 + wirePoly [t] := by
  simp only [wirePoly, List.flatMap_append, bitsPoly_append, List.flatMap_singleton, byteBits_length]

theorem wirePoly_xor (a b : Byte) : wirePoly [a ^^^ b] = wirePoly [a] + wirePoly [b] := by
  ext i
  simp only [coeff_add, coeff_wirePoly_byte, BitVec.getLsbD_xor]
  cases a.getLsbD i <;> cases b.getLsbD i <;> decide

theorem wirePoly_zero : wirePoly [0] = 0 := by
  ext i
  simp [coeff_wirePoly_byte]

theorem wirePoly_byte_eq_zero {b : Byte} (h : wirePoly [b] = 0) : b = 0 := by
  refine BitVec.eq_of_getLsbD_eq fun i _ => ?_
  simpa [coeff_wirePoly_byte] using congrArg (·.coeff i) h

theorem degree_wirePoly_byte_lt (b : Byte) : (wirePoly [b]).degree < 8 := by
  refine (degree_lt_iff_coeff_zero _ 8).2 fun i hi => ?_
  rw [coeff_wirePoly_byte, BitVec.getLsbD_of_ge _ _ hi]
  rfl

/-! The generator. -/

theorem degree_crcGenerator : crcGenerator.degree = 8 := by
  unfold crcGenerator
  compute_degree!

/-- The constant 0xD5 of the shift is the generator below its highest power. -/
theorem crcGenerator_eq : crcGenerator = X ^ 8 + wirePoly [0xD5] := by
  have hbits : byteBits 0xD5 = [true, true, false, true, false, true, false, true] := by decide
  simp only [crcGenerator, wirePoly, List.flatMap_singleton, hbits, bitsPoly, List.foldl_cons, List.foldl_nil, if_true,
    Bool.false_eq_true, if_false, C_0, C_1]
  ring

/-- No byte but 0 is a multiple of the generator, whose degree is too high. -/
theorem crcGenerator_dvd_wirePoly_byte {b : Byte} : crcGenerator ∣ wirePoly [b] ↔ b = 0 := by
  constructor
  · intro h
    exact wirePoly_byte_eq_zero
      (eq_zero_of_dvd_of_degree_lt h (degree_crcGenerator ▸ degree_wirePoly_byte_lt b))
  · rintro rfl
    exact wirePoly_zero ▸ dvd_zero _

/-! The shift loop. -/

/-- Multiplying a byte by `x` moves its bits up, the highest out of the byte. -/
theorem wirePoly_byte_mul_X (c : Byte) :
    wirePoly [c] * X = wirePoly [c <<< 1] + if c.getLsbD 7 then X ^ 8 else 0 := by
  ext i
  cases i with
  | zero => cases hc : c.getLsbD 7 <;> simp [coeff_wirePoly_byte]
  | succ i =>
    have hout : (if c.getLsbD 7 then X ^ 8 else 0 : (ZMod 2)[X]).coeff (i + 1) =
        if c.getLsbD 7 ∧ i = 7 then 1 else 0 := by
      cases c.getLsbD 7 <;> simp [coeff_X_pow]
    rw [coeff_mul_X, coeff_add, hout, coeff_wirePoly_byte, coeff_wirePoly_byte, BitVec.getLsbD_shiftLeft]
    obtain hi | rfl | hi : i < 7 ∨ i = 7 ∨ 8 ≤ i := by omega
    · have hin : i + 1 < 8 := by omega
      simp [hin, hi.ne]
    · simp
    · have hne : i ≠ 7 := by omega
      simp [BitVec.getLsbD_of_ge c i hi, hne]

/-- One shift multiplies by `x` and takes the generator off when the product has degree 8. -/
theorem wirePoly_crcBit (c : Byte) :
    wirePoly [crcBit c] = wirePoly [c] * X + if c.getLsbD 7 then crcGenerator else 0 := by
  rw [wirePoly_byte_mul_X, crcBit_eq_xor, wirePoly_xor, crcGenerator_eq]
  cases c.getLsbD 7 with
  | false => simpa using wirePoly_zero
  | true =>
    have hchar : (X ^ 8 + X ^ 8 : (ZMod 2)[X]) = 0 := CharTwo.add_self_eq_zero _
    simp only [if_true]
    linear_combination -hchar

/-- A byte string's polynomial modulo the generator. -/
noncomputable def wireResidue (m : List Byte) : AdjoinRoot crcGenerator := AdjoinRoot.mk crcGenerator (wirePoly m)

theorem wireResidue_crcShifts (n : Nat) (c : Byte) :
    wireResidue [crcShifts n c] = wireResidue [c] * AdjoinRoot.root crcGenerator ^ n := by
  induction n generalizing c with
  | zero => simp [crcShifts]
  | succ n ih =>
    have hbit : wireResidue [crcBit c] = wireResidue [c] * AdjoinRoot.root crcGenerator := by
      simp only [wireResidue, wirePoly_crcBit]
      split <;> simp
    rw [crcShifts, ih, hbit]
    ring

/-- The CRC is the remainder of the string's polynomial times `x^8`. -/
theorem wireResidue_crc8 (m : List Byte) :
    wireResidue [crc8 m] = wireResidue m * AdjoinRoot.root crcGenerator ^ 8 := by
  induction m using List.reverseRecOn with
  | nil =>
    have hzero : wireResidue [0] = 0 := by rw [wireResidue, wirePoly_zero, map_zero]
    have hnil : wireResidue [] = 0 := map_zero _
    rw [crc8_nil, hzero, hnil, zero_mul]
  | append_singleton m d ih =>
    calc wireResidue [crc8 (m ++ [d])]
        = wireResidue [crc8 m ^^^ d] * AdjoinRoot.root crcGenerator ^ 8 := by
          rw [crc8_snoc, crcByte, wireResidue_crcShifts]
      _ = (wireResidue [crc8 m] + wireResidue [d]) * AdjoinRoot.root crcGenerator ^ 8 := by
          simp only [wireResidue, wirePoly_xor, map_add]
      _ = wireResidue (m ++ [d]) * AdjoinRoot.root crcGenerator ^ 8 := by
          rw [ih]
          simp [wireResidue, wirePoly_snoc]

/-- Settles O12: modulo the generator a string followed by `t` is the byte `crc8 m ^^^ t`, which is a multiple of the
generator only as 0. -/
theorem crcIsPolynomialRemainder : Obligations.CrcIsPolynomialRemainder := by
  intro m t
  have hresidue : wireResidue (m ++ [t]) = wireResidue [crc8 m ^^^ t] := by
    calc wireResidue (m ++ [t])
        = wireResidue m * AdjoinRoot.root crcGenerator ^ 8 + wireResidue [t] := by
          simp [wireResidue, wirePoly_snoc]
      _ = wireResidue [crc8 m] + wireResidue [t] := by rw [wireResidue_crc8]
      _ = wireResidue [crc8 m ^^^ t] := by simp only [wireResidue, wirePoly_xor, map_add]
  calc crcGenerator ∣ wirePoly (m ++ [t])
      ↔ wireResidue (m ++ [t]) = 0 := AdjoinRoot.mk_eq_zero.symm
    _ ↔ crcGenerator ∣ wirePoly [crc8 m ^^^ t] := by rw [hresidue]; exact AdjoinRoot.mk_eq_zero
    _ ↔ crc8 m ^^^ t = 0 := crcGenerator_dvd_wirePoly_byte
    _ ↔ t = crc8 m := by exact BitVec.xor_eq_zero_iff.trans eq_comm

end Sys2Proof.Machine
end

section
/-! PROOFS. The TRAMP checksum (41_checksum.md R94 to R97): it is the sum of thirteen bytes as bytes, so it ignores
their order and moves with each of them; and what TRAMP_CHECKSUM and TRAMP_VALIDATE answer. -/

namespace Sys2Proof.Machine

/-! The sum. -/

/-- The sum mod 256 is the sum in the ring of bytes. -/
theorem trampChecksum_eq_sum (f : List Byte) : trampChecksum f = ((f.drop 1).take 13).sum := by
  rw [trampChecksum]
  induction (f.drop 1).take 13 with
  | nil => rfl
  | cons d l ih =>
    rw [List.map_cons, List.sum_cons, List.sum_cons, BitVec.ofNat_add, ih, BitVec.ofNat_toNat, BitVec.setWidth_eq]

/-- Settles O16: a sum does not depend on the order. -/
theorem trampChecksumIgnoresOrder : Obligations.TrampChecksumIgnoresOrder := by
  intro f g _ _ h
  rw [trampChecksum_eq_sum, trampChecksum_eq_sum, h.sum_eq]

/-- A byte of positions 1..13 enters the checksum by its difference. -/
theorem trampChecksum_set {f : List Byte} {i : Nat} {v : Byte} (hi : i < f.length) (h1 : 1 ≤ i) (h13 : i ≤ 13) :
    trampChecksum (f.set i v) = trampChecksum f + (-f[i] + v) := by
  obtain ⟨j, rfl⟩ := Nat.exists_eq_add_of_le h1
  have hj : j < ((f.drop 1).take 13).length := by rw [List.length_take, List.length_drop]; omega
  have hset : ((f.set (1 + j) v).drop 1).take 13 = ((f.drop 1).take 13).set j v := by
    rw [List.drop_set, if_neg (by omega), Nat.add_sub_cancel_left, List.take_set]
  rw [trampChecksum_eq_sum, trampChecksum_eq_sum, hset, List.sum_set', dif_pos hj, List.getElem_take,
    List.getElem_drop]

theorem trampChecksum_set_ne {f : List Byte} {i : Nat} {v : Byte} (hi : i < f.length) (h1 : 1 ≤ i) (h13 : i ≤ 13)
    (hv : f[i] ≠ v) : trampChecksum (f.set i v) ≠ trampChecksum f := by
  rw [trampChecksum_set hi h1 h13]
  intro h
  exact hv (neg_add_eq_zero.1 (add_eq_left.1 h))

/-! The operations. -/

/-- TRAMP_VALIDATE's answer word, from the checksum and its two flags (R97). -/
def trampAnswer (c : Byte) (sok tok : Bool) : Word :=
  (zext c <<< 8) ||| (flagWord tok <<< 2) ||| (flagWord sok <<< 1) ||| flagWord (sok && tok)

theorem trampAnswer_eq_ofNat (c : Byte) (sok tok : Bool) :
    trampAnswer c sok tok = BitVec.ofNat 32
      (c.toNat * 256 + (if tok then 4 else 0) + (if sok then 2 else 0) + if sok ∧ tok then 1 else 0) := by
  have hflags : (flagWord tok <<< 2) ||| ((flagWord sok <<< 1) ||| flagWord (sok && tok)) =
      BitVec.ofNat 32 ((if tok then 4 else 0) + (if sok then 2 else 0) + if sok ∧ tok then 1 else 0) := by
    cases tok <;> cases sok <;> rfl
  have hlt : (if tok then 4 else 0) + (if sok then 2 else 0) + (if sok ∧ tok then 1 else 0) < 2 ^ 8 := by
    cases tok <;> cases sok <;> decide
  rw [trampAnswer, BitVec.or_assoc, BitVec.or_assoc, hflags, zext_shiftLeft_or_eq_ofNat c hlt]
  simp only [Nat.add_assoc]

theorem exec_trampChecksum {f : List Byte} (hf : f.length = 16) (s : State) :
    exec (.trampChecksum f) s = .next { s with
      result := some ⟨true, BitVec.ofNat 32 (trampChecksum f).toNat⟩ } := by
  rw [← zext_eq_ofNat]
  exact if_pos hf

theorem exec_trampValidate {f : List Byte} (hf : f.length = 16) (s : State) :
    exec (.trampValidate f) s = .next { s with result := some ⟨true,
      trampAnswer (trampChecksum f) (decide (f[14]? = some (trampChecksum f))) (decide (f[15]? = some 0))⟩ } :=
  if_pos hf

/-- Settles O17: the change moves the checksum and leaves the byte that carries it. -/
theorem trampChecksumDetectsByteChange : Obligations.TrampChecksumDetectsByteChange := by
  intro s f i v hf h1 h13 hv hchk
  have hi : i < f.length := by omega
  have hne : trampChecksum (f.set i v) ≠ trampChecksum f :=
    trampChecksum_set_ne hi h1 h13 fun h => hv (by rw [List.getElem?_eq_getElem hi, h])
  have hcarried : ¬ (f.set i v)[14]? = some (trampChecksum (f.set i v)) := by
    rw [List.getElem?_set_ne (by omega), hchk]
    exact fun h => hne (Option.some.inj h).symm
  refine ⟨_, exec_trampValidate (by rw [List.length_set, hf]) s, ?_⟩
  rw [decide_eq_false hcarried]
  cases decide ((f.set i v)[15]? = some 0) <;> simp [trampAnswer, flagWord]

/-- Settles O18: sixteen bytes have the sum as their checksum; any other length fails both guards. -/
theorem trampChecksumOperationsAnswer : Obligations.TrampChecksumOperationsAnswer := by
  intro s h b1 b2 b3 b4 b5 b6 b7 b8 b9 b10 b11 b12 b13 chk term f sum sok tok
  have hsum : (trampChecksum f).toNat = sum := by
    simp [f, sum, trampChecksum, Nat.add_assoc]
  have hsok : f[14]? = some (trampChecksum f) ↔ sok := by
    show some chk = some (trampChecksum f) ↔ chk.toNat = sum
    rw [Option.some_inj, ← hsum, BitVec.toNat_inj]
  have htok : f[15]? = some 0 ↔ tok := Option.some_inj
  refine ⟨?checksum, ?validate, fun l hl => ⟨if_neg hl, if_neg hl⟩⟩
  case checksum => rw [exec_trampChecksum rfl, hsum]
  case validate =>
    rw [exec_trampValidate rfl, trampAnswer_eq_ofNat, hsum]
    simp only [decide_eq_true_eq, hsok, htok]

end Sys2Proof.Machine
end

section
/-! PROOFS. The SmartAudio request builders (42_sa_frames.md R99 to R104): each gives its frame, byte by byte, and writes
nothing else. -/

namespace Sys2Proof.Machine

theorem saSetPowerFrame_eq (pw : Byte) :
    saSetPowerFrame pw = [0xAA, 0x55, 0x05, 0x01, pw, crc8 [0xAA, 0x55, 0x05, 0x01, pw]] := rfl

theorem saSetChannelFrame_eq (idx : Byte) :
    saSetChannelFrame idx = [0xAA, 0x55, 0x07, 0x01, idx, crc8 [0xAA, 0x55, 0x07, 0x01, idx]] := rfl

theorem saSetModeFrame_eq (m : Byte) :
    saSetModeFrame m = [0xAA, 0x55, 0x0B, 0x01, m, crc8 [0xAA, 0x55, 0x0B, 0x01, m]] := rfl

/-- The frequency's bytes are sent high byte first (20_memory.md R54). -/
theorem saSetFrequencyFrame_eq {v : Half} {hi lo : Byte} (h : v.toNat = hi.toNat * 256 + lo.toNat) :
    saSetFrequencyFrame v = [0xAA, 0x55, 0x09, 0x02, hi, lo, crc8 [0xAA, 0x55, 0x09, 0x02, hi, lo]] := by
  obtain ⟨hhi, hlo⟩ := bytes_of_half h
  rw [saSetFrequencyFrame, hhi, hlo]
  rfl

/-- Settles O24: on a SmartAudio engine a builder only hands out its frame. -/
theorem smartAudioRequestFrames : Obligations.SmartAudioRequestFrames := by
  intro s e x v hs
  refine ⟨?settings, buildSa_of_sa hs, buildSa_of_sa hs, buildSa_of_sa hs, ?frequency⟩
  case settings =>
    have hframe : saGetSettingsFrame = [0xAA, 0x55, 0x03, 0x00, 0x9F] := by decide +kernel
    rw [← hframe]
    exact buildSa_of_sa hs
  case frequency =>
    intro hi lo hv
    rw [← saSetFrequencyFrame_eq hv]
    exact buildSa_of_sa hs

end Sys2Proof.Machine
end

section
/-! PROOFS. The SmartAudio replies (42_sa_frames.md R112 to R118): what each handler writes, and which outstanding
command a reply code completes (43_sa_engine.md R123). -/

namespace Sys2Proof.Machine

/-! Completion. -/

/-- The reply codes that answer each request (R112). -/
theorem mem_replyClass {r : Byte} {o : CmdId} :
    r ∈ replyClass o ↔ (o = 0x01 ∧ (r = 0x01 ∨ r = 0x09 ∨ r = 0x11)) ∨ (o = 0x02 ∧ r = 0x02) ∨
      (o = 0x03 ∧ r = 0x03) ∨ (o = 0x04 ∧ r = 0x04) ∨ (o = 0x05 ∧ r = 0x05) := by
  unfold replyClass
  split_ifs <;> simp_all

/-- The reply code `r` answers the command `id` and no other. -/
def AnswersOnly (r : Byte) (id : CmdId) : Prop := ∀ o, r ∈ replyClass o ↔ o = id

theorem answersOnly_getSettings {r : Byte} (hr : r = 0x01 ∨ r = 0x09 ∨ r = 0x11) : AnswersOnly r 0x01 := by
  intro o
  rcases hr with rfl | rfl | rfl <;> simp [mem_replyClass]

theorem answersOnly_setPower : AnswersOnly 0x02 0x02 := fun o => by simp [mem_replyClass]

theorem answersOnly_setChannel : AnswersOnly 0x03 0x03 := fun o => by simp [mem_replyClass]

theorem answersOnly_setFrequency : AnswersOnly 0x04 0x04 := fun o => by simp [mem_replyClass]

theorem answersOnly_setMode : AnswersOnly 0x05 0x05 := fun o => by simp [mem_replyClass]

/-- A code that answers a command is listed (R78, R112). -/
theorem mem_listedReplyCodes_of_mem_replyClass {r : Byte} {o : CmdId} (h : r ∈ replyClass o) :
    r ∈ listedReplyCodes := by
  rcases mem_replyClass.1 h with ⟨-, rfl | rfl | rfl⟩ | ⟨-, rfl⟩ | ⟨-, rfl⟩ | ⟨-, rfl⟩ | ⟨-, rfl⟩ <;> decide

/-- The engine after a reply to the command `id`: that command, if it is the outstanding one, is dequeued and the marker
cleared (R123). -/
def SaEngine.answered (id : CmdId) (e : SaEngine) : SaEngine :=
  { e with
    q := if e.outstanding = some id then { e.q with head := (e.q.head + 1) % 4, count := e.q.count - 1 } else e.q
    outstanding := if e.outstanding = some id then none else e.outstanding }

theorem SaEngine.answered_eq_ite (id : CmdId) (e : SaEngine) :
    e.answered id = if e.outstanding = some id then
      { e with q := { e.q with head := (e.q.head + 1) % 4, count := e.q.count - 1 }, outstanding := none }
    else e := by
  unfold SaEngine.answered
  split <;> rfl

theorem saComplete_eq_answered {r : Byte} {id : CmdId} {e : SaEngine} (hr : AnswersOnly r id)
    (hlive : e.outstanding = some id → 0 < e.q.count) : saComplete r e = .ok (e.answered id) := by
  rw [e.answered_eq_ite]
  by_cases ho : e.outstanding = some id
  · rw [if_pos ho, saComplete_answered ho ((hr id).2 rfl) (hlive ho)]
  · rw [if_neg ho]
    refine saComplete_unanswered fun o hso hmem => ho ?_
    rw [hso, (hr o).1 hmem]

/-! The reply rows. -/

/-- A reply row on a SmartAudio engine: its handler and the completion, and nothing else of the state (R113). -/
theorem onSa_saDispatch_answered {r : Byte} {id : CmdId} {p : List Byte} {s : State} {e e₁ : SaEngine}
    (hs : s.engine = .sa e) (hr : AnswersOnly r id) (hrespond : saRespond s.cfg r p e = e₁)
    (hlive : e₁.outstanding = some id → 0 < e₁.q.count) :
    onSa (saDispatch s.cfg r p) s = .next { s with engine := .sa (e₁.answered id) } :=
  onSa_of_ok hs (by rw [saDispatch, hrespond, saComplete_eq_answered hr hlive])

theorem saRespond_settings {r : Byte} (hr : r = 0x01 ∨ r = 0x09 ∨ r = 0x11) (c : Config) (p : List Byte)
    (e : SaEngine) : saRespond c r p e = saRespSettings r p e := if_pos hr

/-- The handler of a settings reply, by the bytes that the payload has (R115). -/
theorem saRespSettings_eq (r : Byte) (p : List Byte) (e : SaEngine) :
    saRespSettings r p e = { e with
      version := replyVersion r
      channel := match p with | x :: _ => some x | _ => e.channel
      power := match p with | _ :: x :: _ => some x | _ => e.power
      mode := match p with | _ :: _ :: x :: _ => some x | _ => e.mode
      freq := match p with
        | _ :: _ :: _ :: hi :: lo :: _ => some (BitVec.ofNat 16 (hi.toNat * 256 + lo.toNat)) | _ => e.freq } := by
  have hbe (hi lo : Byte) : BitVec.ofNat 16 (hi.toNat * 256 + lo.toNat) = u16be hi lo := by
    rw [← u16be_toNat, BitVec.ofNat_toNat, BitVec.setWidth_eq]
  match p with
  | [] => rfl
  | [_] => rfl
  | [_, _] => rfl
  | [_, _, _] => rfl
  | [_, _, _, _] => rfl
  | _ :: _ :: _ :: hi :: lo :: more => simp [saRespSettings, hbe]

/-- Settles O35: the handler writes the fields that the payload reaches, and the three codes answer GET_SETTINGS
only. -/
theorem smartAudioSettingsReplies : Obligations.SmartAudioSettingsReplies := by
  intro s e p hs hlive after
  have hreply {r : Byte} (hr : r = 0x01 ∨ r = 0x09 ∨ r = 0x11) :
      onSa (saDispatch s.cfg r p) s = .next { s with engine := .sa (after (replyVersion r)) } :=
    onSa_saDispatch_answered hs (answersOnly_getSettings hr)
      ((saRespond_settings hr s.cfg p e).trans (saRespSettings_eq r p e)) hlive
  exact ⟨hreply (.inl rfl), hreply (.inr (.inl rfl)), hreply (.inr (.inr rfl))⟩

/-- A payload of two bytes or more is a report of the pit frequency or of the frequency, as the flag says (R116). -/
theorem saRespSetFreq_report {hi lo : Byte} {v : Half} (hv : v.toNat = hi.toNat * 256 + lo.toNat) (c : Config)
    (more : List Byte) (e : SaEngine) :
    saRespSetFreq c (hi :: lo :: more) e =
      if v &&& c.saPitFlag ≠ 0 then { e with pitFreq := some (v &&& (0xFFFF ^^^ c.saPitFlag)) }
      else { e with freq := some v } := by
  obtain ⟨hhi, hlo⟩ := bytes_of_half hv
  have hbe : u16be hi lo = v := by rw [← hhi, ← hlo, u16be_bytes]
  simp [saRespSetFreq, hbe]

theorem saRespSetFreq_short {p : List Byte} (hp : p.length < 2) (c : Config) (e : SaEngine) :
    saRespSetFreq c p e = e := if_neg (by omega)

/-- Settles O36: the handler's two branches on the flag and its short payload; the echo answers SET_FREQUENCY only. -/
theorem smartAudioFrequencyEcho : Obligations.SmartAudioFrequencyEcho := by
  intro s e hi lo more v hs hlive hv answered
  refine ⟨fun hflag => ?_, fun hflag => ?_, fun p hp => ?_⟩
  · exact onSa_saDispatch_answered hs answersOnly_setFrequency
      ((saRespSetFreq_report hv s.cfg more e).trans (if_pos hflag)) hlive
  · exact onSa_saDispatch_answered hs answersOnly_setFrequency
      ((saRespSetFreq_report hv s.cfg more e).trans (if_neg (not_not.2 hflag))) hlive
  · exact onSa_saDispatch_answered hs answersOnly_setFrequency (saRespSetFreq_short hp s.cfg e) hlive

theorem saRespond_not_listed {r : Byte} (h : r ∉ listedReplyCodes) (c : Config) (p : List Byte) (e : SaEngine) :
    saRespond c r p e = e := by
  simp only [listedReplyCodes, List.mem_cons, List.not_mem_nil, or_false, not_or] at h
  obtain ⟨h1, h9, h11, h2, h3, h4, h5⟩ := h
  simp only [saRespond, saRespOther, h1, h9, h11, h2, h3, h4, h5, or_self, if_false]

/-- Settles O37: the echoes' handlers leave the engine as it is and each answers its own command; a code that is not
listed answers none. -/
theorem smartAudioEchoesAndOtherReplies : Obligations.SmartAudioEchoesAndOtherReplies := by
  intro s e p hs answered
  refine ⟨fun hlive => ?echoes, fun code hcode => ?other⟩
  case echoes =>
    have hecho {r : Byte} {id : CmdId} (hr : AnswersOnly r id) (hsame : saRespond s.cfg r p e = e) :
        onSa (saDispatch s.cfg r p) s = .next { s with engine := .sa (answered id) } := by
      rw [onSa_saDispatch_answered hs hr hsame fun ho => hlive (by simp [ho]), e.answered_eq_ite]
    exact ⟨hecho answersOnly_setPower rfl, hecho answersOnly_setChannel rfl, hecho answersOnly_setMode rfl⟩
  case other =>
    have hdispatch : saDispatch s.cfg code p e = .ok e := by
      rw [saDispatch, saRespond_not_listed hcode,
        saComplete_unanswered fun o _ hmem => hcode (mem_listedReplyCodes_of_mem_replyClass hmem)]
    refine (onSa_of_ok hs hdispatch).trans ?_
    rw [← hs]
    rfl

end Sys2Proof.Machine
end

section
/-! PROOFS. The SmartAudio receiver (42_sa_frames.md R105 to R111): what it does with a byte in each receive state, and
with a whole frame, whose payload then stands in its registers and is dispatched or, with a wrong trailer, discarded. -/

namespace Sys2Proof.Machine

/-! Lengths that a byte holds. -/

theorem toNat_ofNat_byte {n : Nat} (hn : n < 256) : (BitVec.ofNat 8 n).toNat = n := by
  rw [BitVec.toNat_ofNat, Nat.mod_eq_of_lt hn]

theorem ofNat_byte_inj {m n : Nat} (hm : m < 256) (hn : n < 256) : BitVec.ofNat 8 m = BitVec.ofNat 8 n ↔ m = n := by
  rw [← BitVec.toNat_inj, toNat_ofNat_byte hm, toNat_ofNat_byte hn]

/-! One byte. -/

section OneByte
variable {c : Config} {e : SaEngine} (d : Byte)

theorem saRxByte_preamble1 (hs : e.rx = .waitPreamble1) :
    saRxByte c d e = .ok (if d = 0xAA then { e with rx := .waitPreamble2 }
      else { e with badPreamble := (e.badPreamble + 1) % 2 ^ c.cntWidth }) :=
  calc saRxByte c d e = .ok (saRxPreamble1 c d e) := by rw [saRxByte, hs]
    _ = _ := rfl

theorem saRxByte_preamble2 (hs : e.rx = .waitPreamble2) :
    saRxByte c d e = .ok (if d = 0x55 then { e with rx := .waitCommand }
      else { e with badPreamble := (e.badPreamble + 1) % 2 ^ c.cntWidth, rx := .waitPreamble1 }) :=
  calc saRxByte c d e = .ok (saRxPreamble2 c d e) := by rw [saRxByte, hs]
    _ = _ := rfl

theorem saRxByte_command (hs : e.rx = .waitCommand) :
    saRxByte c d e = .ok { e with rxCmd := d, rx := .waitLength } :=
  calc saRxByte c d e = .ok (saRxCommand d e) := by rw [saRxByte, hs]
    _ = _ := rfl

theorem saRxByte_length (hs : e.rx = .waitLength) :
    saRxByte c d e = .ok (
      if c.saMaxPayload < d.toNat then { e with badLength := (e.badLength + 1) % 2 ^ c.cntWidth, rx := .waitPreamble1 }
      else { e with rxLen := d, rxCount := 0, rx := if d = 0 then .waitCrc else .waitData }) :=
  calc saRxByte c d e = .ok (saRxLength c d e) := by rw [saRxByte, hs]
    _ = _ := rfl

/-- A payload byte is stored at the count, and the last one is followed by the CRC (R110). -/
theorem saRxByte_payload (hs : e.rx = .waitData) (hi : e.rxCount.toNat < e.rxData.length) :
    saRxByte c d e = .ok { e with
      rxData := e.rxData.set e.rxCount.toNat d
      rxCount := e.rxCount + 1
      rx := if e.rxCount + 1 = e.rxLen then .waitCrc else .waitData } := by
  have hw : memWrite e.rxData e.rxCount.toNat d = .ok (e.rxData.set e.rxCount.toNat d) := memWrite_eq_ok.2 ⟨hi, rfl⟩
  simp only [saRxByte, hs, saRxPayload, hw, ok_bind, pure_eq_ok]

/-- The trailer is compared with the CRC of the registers, which hold the payload (R111). -/
theorem saRxByte_crc {p : List Byte} (hs : e.rx = .waitCrc) (hp : memReadRange e.rxData e.rxLen.toNat = .ok p) :
    saRxByte c d e =
      if crc8 ([0xAA, 0x55, e.rxCmd, e.rxLen] ++ p) = d then saDispatch c e.rxCmd p { e with rx := .waitPreamble1 }
      else .ok { e with rx := .waitPreamble1, crcErr := (e.crcErr + 1) % 2 ^ c.cntWidth } := by
  simp only [saRxByte, hs, saRxCrc, hp, ok_bind, pure_eq_ok]
  rfl

end OneByte

/-- Settles O31: the four states before the payload. -/
theorem smartAudioHeaderBytes : Obligations.SmartAudioHeaderBytes :=
  fun _ _ d => ⟨saRxByte_preamble1 d, saRxByte_preamble2 d, saRxByte_command d, saRxByte_length d⟩

/-! A whole frame. -/

theorem saRxList_cons_of_ok {c : Config} {d : Byte} {e e' : SaEngine} (ds : List Byte) (h : saRxByte c d e = .ok e') :
    saRxList c (d :: ds) e = saRxList c ds e' := by
  simp [saRxList, h]

theorem saRxList_singleton (c : Config) (d : Byte) (e : SaEngine) : saRxList c [d] e = saRxByte c d e := by
  simp only [saRxList]
  cases saRxByte c d e <;> rfl

/-- The engine in the frame of the command `cmd` with a payload of `n` bytes, of which `stored` have arrived; `old` is
the rest of the receive buffer (10_state.md R29). -/
def SaEngine.receiving (cmd : Byte) (n : Nat) (stored old : List Byte) (e : SaEngine) : SaEngine :=
  { e with
    rx := if stored.length = n then .waitCrc else .waitData
    rxCmd := cmd
    rxLen := BitVec.ofNat 8 n
    rxCount := BitVec.ofNat 8 stored.length
    rxData := stored ++ old }

/-- The engine with a frame's command and payload in its receive registers. -/
def SaEngine.holding (cmd : Byte) (p : List Byte) (e : SaEngine) : SaEngine :=
  { e with
    rxCmd := cmd
    rxLen := BitVec.ofNat 8 p.length
    rxCount := BitVec.ofNat 8 p.length
    rxData := p ++ e.rxData.drop p.length }

/-- A header with an accepted length begins the payload (R106 to R109). -/
theorem saRxList_header {c : Config} {e : SaEngine} {n : Nat} (hs : e.rx = .waitPreamble1) (hn : n ≤ c.saMaxPayload)
    (hbyte : n < 256) (cmd : Byte) (rest : List Byte) :
    saRxList c ([0xAA, 0x55, cmd, BitVec.ofNat 8 n] ++ rest) e =
      saRxList c rest (e.receiving cmd n [] e.rxData) := by
  have hzero : BitVec.ofNat 8 n = 0 ↔ 0 = n := eq_comm.trans (ofNat_byte_inj (m := 0) (by omega) hbyte)
  have h1 := saRxByte_preamble1 (c := c) 0xAA hs
  have h2 := saRxByte_preamble2 (c := c) (e := { e with rx := .waitPreamble2 }) 0x55 rfl
  have h3 := saRxByte_command (c := c) (e := { e with rx := .waitCommand }) cmd rfl
  have h4 := saRxByte_length (c := c) (e := { e with rxCmd := cmd, rx := .waitLength }) (BitVec.ofNat 8 n) rfl
  rw [if_pos rfl] at h1 h2
  rw [if_neg (by rw [toNat_ofNat_byte hbyte]; omega)] at h4
  simp only [hzero] at h4
  simp only [List.cons_append, List.nil_append]
  rw [saRxList_cons_of_ok _ h1, saRxList_cons_of_ok _ h2, saRxList_cons_of_ok _ h3, saRxList_cons_of_ok _ h4]
  rfl

/-- A byte of the payload takes the place of the next byte of the buffer (R110). -/
theorem saRxByte_receiving {n : Nat} {stored : List Byte} (hn : stored.length < n) (hbyte : n < 256) (c : Config)
    (e : SaEngine) (cmd d b : Byte) (old : List Byte) :
    saRxByte c d (e.receiving cmd n stored (b :: old)) = .ok (e.receiving cmd n (stored ++ [d]) old) := by
  have hcount : (BitVec.ofNat 8 stored.length).toNat = stored.length := toNat_ofNat_byte (by omega)
  have hnext : BitVec.ofNat 8 stored.length + 1 = BitVec.ofNat 8 (stored.length + 1) :=
    (BitVec.ofNat_add stored.length 1).symm
  have hlast : BitVec.ofNat 8 (stored.length + 1) = BitVec.ofNat 8 n ↔ stored.length + 1 = n :=
    ofNat_byte_inj (by omega) hbyte
  have hs : (e.receiving cmd n stored (b :: old)).rx = .waitData := if_neg (by omega)
  rw [saRxByte_payload d hs (by simp [SaEngine.receiving, hcount])]
  simp only [SaEngine.receiving, hcount, hnext, hlast, List.length_append, List.length_singleton, List.set_append_right,
    Nat.le_refl, Nat.sub_self, List.set_cons_zero, List.append_assoc, List.singleton_append]

/-- A payload that fits is stored in the buffer, byte by byte. -/
theorem saRxList_receiving {p stored old : List Byte} (hold : p.length ≤ old.length)
    (hbyte : stored.length + p.length < 256) (c : Config) (e : SaEngine) (cmd : Byte) (rest : List Byte) :
    saRxList c (p ++ rest) (e.receiving cmd (stored.length + p.length) stored old) =
      saRxList c rest (e.receiving cmd (stored.length + p.length) (stored ++ p) (old.drop p.length)) := by
  induction p generalizing stored old with
  | nil => simp
  | cons d p ih =>
    cases old with
    | nil => simp at hold
    | cons b old =>
      simp only [List.length_cons] at hold hbyte ⊢
      have hn : stored.length < stored.length + (p.length + 1) := by omega
      have hfirst := saRxByte_receiving hn hbyte c e cmd d b old
      have hrest := ih (stored := stored ++ [d]) (old := old) (by omega) (by simp; omega)
      rw [List.cons_append, saRxList_cons_of_ok _ hfirst]
      simpa [Nat.add_assoc, Nat.add_comm 1] using hrest

/-- With the payload stored, the trailer decides between the dispatch and a CRC error (R111). -/
theorem saRxByte_trailer {c : Config} {e : SaEngine} {p : List Byte} (hs : e.rx = .waitPreamble1)
    (hbyte : p.length < 256) (cmd t : Byte) :
    saRxByte c t (e.receiving cmd p.length p (e.rxData.drop p.length)) =
      if crc8 ([0xAA, 0x55, cmd, BitVec.ofNat 8 p.length] ++ p) = t then saDispatch c cmd p (e.holding cmd p)
      else .ok { e.holding cmd p with crcErr := (e.crcErr + 1) % 2 ^ c.cntWidth } := by
  have hp : memReadRange (p ++ e.rxData.drop p.length) (BitVec.ofNat 8 p.length).toNat = .ok p := by
    rw [toNat_ofNat_byte hbyte]
    exact memReadRange_eq_ok.2 ⟨by simp, by simp⟩
  rw [saRxByte_crc t (if_pos rfl) hp]
  simp only [SaEngine.receiving, SaEngine.holding, hs]

/-- A frame received from the first state: its payload ends up in the registers, and it is dispatched or discarded
(R105 to R111). -/
theorem saRxList_frame {c : Config} {e : SaEngine} {p : List Byte} (hc : c.Valid) (he : e.Wf c)
    (hs : e.rx = .waitPreamble1) (hp : p.length ≤ c.saMaxPayload) (cmd t : Byte) :
    saRxList c ([0xAA, 0x55, cmd, BitVec.ofNat 8 p.length] ++ p ++ [t]) e =
      if crc8 ([0xAA, 0x55, cmd, BitVec.ofNat 8 p.length] ++ p) = t then saDispatch c cmd p (e.holding cmd p)
      else .ok { e.holding cmd p with crcErr := (e.crcErr + 1) % 2 ^ c.cntWidth } := by
  obtain ⟨-, hmax, -, -⟩ := hc
  obtain ⟨-, ⟨hbuf, -⟩, -⟩ := he
  have hpayload := saRxList_receiving (stored := []) (hp.trans_eq hbuf.symm) (by simp; omega) c e cmd [t]
  simp only [List.length_nil, Nat.zero_add, List.nil_append] at hpayload
  rw [List.append_assoc, saRxList_header hs hp (by omega), hpayload, saRxList_singleton,
    saRxByte_trailer hs (by omega)]

/-- Settles O33: the trailer is not the CRC, so the frame's payload stays in the registers and the error is counted. -/
theorem smartAudioReceiverDiscardsBadCrc : Obligations.SmartAudioReceiverDiscardsBadCrc := by
  intro c e cmd p t hc he hs hp ht
  exact (saRxList_frame hc he hs hp cmd t).trans (if_neg ht.symm)

/-! The reply in a frame. -/

theorem saPayload_saRawFrame (cmd : Byte) (p : List Byte) : saPayload (saRawFrame cmd p) = p := by
  simp [saPayload, saRawFrame]

/-- A reply that the decoder reads from a command byte and a payload runs their dispatch (R75, R113). -/
theorem exec_decodeSaReply (cmd : Byte) (p : List Byte) (s : State) :
    exec (decodeSaReply cmd p) s = onSa (saDispatch s.cfg cmd p) s := by
  by_cases h : cmd ∈ listedReplyCodes
  · simp only [listedReplyCodes, List.mem_cons, List.not_mem_nil, or_false] at h
    rcases h with rfl | rfl | rfl | rfl | rfl | rfl | rfl <;> rfl
  · rw [decodeSaReply_other h]
    rfl

/-- A well-formed instruction whose word is a reply's frame is what the decoder reads from that frame (R74, R78). -/
theorem saReply_of_encode {c : Config} {i : Instr} {f : List Byte} (hc : c.Valid) (hi : i.wellFormed c = true)
    (hf : encode c i = .saReply f) :
    ∃ cmd p, f = saRawFrame cmd p ∧ p.length ≤ c.saMaxPayload ∧ i = decodeSaReply cmd p := by
  have hdec : decode c (.saReply f) = .ok i := hf ▸ decodeOfEncode c i hc hi
  obtain ⟨⟨cmd, p⟩, hparse, rfl⟩ := decode_saReply_eq_ok.1 hdec
  obtain ⟨rfl, hp⟩ := parseSaFrame_ok hparse
  exact ⟨cmd, p, rfl, hp, rfl⟩

/-- Settles O32: the frame's trailer is its CRC, so its reply is dispatched on the engine that holds the frame, and that
dispatch is the instruction's rule. -/
theorem smartAudioReceiverDecodesReply : Obligations.SmartAudioReceiverDecodesReply := by
  intro s e i f hc hs he hrx hi hf
  obtain ⟨cmd, p, rfl, hp, rfl⟩ := saReply_of_encode hc hi hf
  obtain ⟨e', he'⟩ : Answers (saDispatch s.cfg cmd p (e.holding cmd p)) :=
    saDispatch_answers (e := e.holding cmd p) he.count_pos s.cfg cmd p
  refine ⟨e', ((saRxList_frame hc he hrx hp cmd _).trans (if_pos rfl)).trans he', ?_⟩
  rw [exec_decodeSaReply, saPayload_saRawFrame]
  exact onSa_of_ok (e := e.holding cmd p) rfl he'

end Sys2Proof.Machine
end

section
/-! PROOFS. The SmartAudio setters SET_FREQ, SET_POWER and SET_PIT (43_sa_engine.md R128 to R131): each refuses its
operand, or enqueues its request, which a full queue drops. -/

namespace Sys2Proof.Machine

theorem setEngine_self {g : Engine} {s : State} (h : s.engine = g) : setEngine g s = s := by
  subst h
  rfl

/-- An accepted setter whose queue is full returns `ok` and drops its request silently (R119). -/
theorem finishSaSetter_saSend_full {f : List Byte} {id : CmdId} {s : State} {e : SaEngine} (hs : s.engine = .sa e)
    (hc : e.q.count = 4) : finishSaSetter (saSend f id e) s = .next { s with result := some ⟨true, 0⟩ } := by
  rw [saSend, saEnqueue_of_push (queuePush_full f id hc)]
  show Host.Outcome.next (retOk (setEngine (.sa e) s)) = _
  rw [setEngine_self hs]
  rfl

/-! SET_FREQ. -/

theorem freqInRange_iff {f : Half} : freqInRange f = true ↔ 5000 ≤ f.toNat ∧ f.toNat ≤ 5999 :=
  decide_eq_true_iff

theorem saSetFrequency_of_not_inRange {f : Half} (e : SaEngine) (h : ¬ (5000 ≤ f.toNat ∧ f.toNat ≤ 5999)) :
    saSetFrequency f e = .ok none :=
  if_neg (mt freqInRange_iff.1 h)

theorem saSetFrequency_of_inRange {f : Half} (e : SaEngine) (h : 5000 ≤ f.toNat ∧ f.toNat ≤ 5999) :
    saSetFrequency f e = saSend (saSetFrequencyFrame f) saIdSetFrequency e :=
  if_pos (freqInRange_iff.2 h)

/-- Settles O27: SET_FREQ is the engine's setter, which refuses a frequency out of the band and else sends the
SET_FREQUENCY frame, to a full queue or to one with room. -/
theorem smartAudioSetFreq : Obligations.SmartAudioSetFreq := by
  intro s e f hi lo hs hl hf
  have hexec : exec (.setFreq f) s = finishSaSetter (saSetFrequency f e) s := (setter_setFreq f).sa s e hs
  refine ⟨fun hout => ?outOfRange, fun hmin hmax hfull => ?full, fun hmin hmax hroom => ?room⟩
  case outOfRange => rw [hexec, saSetFrequency_of_not_inRange e (by omega), finishSaSetter_none]
  case full => rw [hexec, saSetFrequency_of_inRange e ⟨hmin, hmax⟩, finishSaSetter_saSend_full hs hfull]
  case room =>
    rw [hexec, saSetFrequency_of_inRange e ⟨hmin, hmax⟩, finishSaSetter_saSend s hl, if_neg hroom,
      saSetFrequencyFrame_eq hf]
    rfl

/-! SET_POWER. -/

theorem saPowerLevel_eq_none {c : Config} {v : SaVersion} {mw : Half}
    (h : ∀ x ∈ c.saPowerMap, ¬ (x.version = v ∧ x.mw = mw)) : saPowerLevel c v mw = none := by
  rw [saPowerLevel, List.find?_eq_none.2 (by simpa using h)]
  rfl

/-- The first entry for the version and the power counts (R129). -/
theorem saPowerLevel_eq_some {c : Config} {v : SaVersion} {mw : Half} {pw : Byte} {pre post : List PowerEntry}
    (hmap : c.saPowerMap = pre ++ ⟨v, mw, pw⟩ :: post) (hpre : ∀ x ∈ pre, ¬ (x.version = v ∧ x.mw = mw)) :
    saPowerLevel c v mw = some pw := by
  have hfind : (c.saPowerMap.find? fun x => decide (x.version = v ∧ x.mw = mw)) = some ⟨v, mw, pw⟩ :=
    List.find?_eq_some_iff_append.2 ⟨by simp, pre, post, hmap, fun x hx => by rw [decide_eq_false (hpre x hx)]; rfl⟩
  rw [saPowerLevel, hfind]
  rfl

theorem saSetPower_of_none {c : Config} {mw : Half} {e : SaEngine} (h : saPowerLevel c e.version mw = none) :
    saSetPower c mw e = .ok none := by
  simp only [saSetPower, h]

theorem saSetPower_of_some {c : Config} {mw : Half} {e : SaEngine} {pw : Byte}
    (h : saPowerLevel c e.version mw = some pw) : saSetPower c mw e = saSend (saSetPowerFrame pw) saIdSetPower e := by
  simp only [saSetPower, h]

/-- Settles O28: SET_POWER is the engine's setter, which refuses a power that the map lacks at the engine's version and
else sends the SET_POWER frame of the first entry. -/
theorem smartAudioSetPower : Obligations.SmartAudioSetPower := by
  intro s e mw hs hl
  have hexec : exec (.setPower mw) s = finishSaSetter (saSetPower s.cfg mw e) s := (setter_setPower mw).sa s e hs
  refine ⟨fun hnone => ?noEntry, fun pre post pw hmap hpre => ?entry⟩
  case noEntry => rw [hexec, saSetPower_of_none (saPowerLevel_eq_none hnone), finishSaSetter_none]
  case entry =>
    rw [hexec, saSetPower_of_some (saPowerLevel_eq_some hmap hpre), finishSaSetter_saSend s hl]
    rfl

/-! SET_PIT. -/

theorem pitSupported_iff {v : SaVersion} : pitSupported v = true ↔ v = .v2 ∨ v = .v21 :=
  decide_eq_true_iff

theorem saSetPitMode_of_not_supported {e : SaEngine} (on : Bool) (h : e.version = .unknown ∨ e.version = .v1) :
    saSetPitMode on e = .ok none :=
  if_neg (mt pitSupported_iff.1 (by rcases h with hv | hv <;> simp [hv]))

theorem saSetPitMode_of_supported {e : SaEngine} (on : Bool) (h : e.version = .v2 ∨ e.version = .v21) :
    saSetPitMode on e = saSend (saSetModeFrame (saPitMode on)) saIdSetMode e :=
  if_pos (pitSupported_iff.2 h)

/-- The two SET_MODE frames of the setter, their CRCs computed (30_encoding.md R77). -/
theorem saSetModeFrame_saPitMode (on : Bool) : saSetModeFrame (saPitMode on) =
    if on then [0xAA, 0x55, 0x0B, 0x01, 0x01, 0xF8] else [0xAA, 0x55, 0x0B, 0x01, 0x04, 0xD3] := by
  cases on
  · decide +kernel
  · decide +kernel

/-- Settles O29: SET_PIT is the engine's setter, which refuses below version 2 and else sends the SET_MODE frame. -/
theorem smartAudioSetPit : Obligations.SmartAudioSetPit := by
  intro s e on hs hl
  have hexec : exec (.setPit on) s = finishSaSetter (saSetPitMode on e) s := (setter_setPit on).sa s e hs
  refine ⟨fun hv => ?notSupported, fun hv => ?supported⟩
  case notSupported => rw [hexec, saSetPitMode_of_not_supported on hv, finishSaSetter_none]
  case supported =>
    rw [hexec, saSetPitMode_of_supported on hv, finishSaSetter_saSend s hl, saSetModeFrame_saPitMode]
    rfl

end Sys2Proof.Machine
end

section
/-! PROOFS. A SmartAudio POLL without RX bytes: the initialization step (43_sa_engine.md R126), then the scheduler (R124),
each said once as equations on an engine whose queue is in range. -/

namespace Sys2Proof.Machine

/-! The queue. -/

/-- `q'` is `q` with the commands `l` behind its entries, as far as there is room (R119). -/
structure SaQueue.Took (q : SaQueue) (l : List Slot) (q' : SaQueue) : Prop where
  entries : queueEntries q' = (queueEntries q ++ l).take 4
  head : q'.head = q.head
  inRange : q'.InRange

theorem SaQueue.Took.nil {q : SaQueue} (hq : q.InRange) : q.Took [] q where
  entries := by rw [List.append_nil, List.take_of_length_le (queueEntries_length hq.slots ▸ hq.count)]
  head := rfl
  inRange := hq

theorem SaQueue.Took.push {q q' : SaQueue} {f : List Byte} {id : CmdId} (hq : q.InRange)
    (h : queuePush f id q = .ok q') : q.Took [⟨id, f⟩] q' :=
  ⟨queueEntries_push_take hq h, queuePush_head h, queuePush_inRange hq h⟩

/-- What a queue takes goes behind its front entry. -/
theorem SaQueue.Took.front {q q' : SaQueue} {l : List Slot} {x : Slot} (h : q.Took l q')
    (hx : (queueEntries q).head? = some x) : (queueEntries q').head? = some x := by
  rw [h.entries, List.head?_take, if_neg (by decide), List.head?_append, hx, Option.some_or]

theorem queueFront_of_head? {q : SaQueue} {x : Slot} (hq : q.InRange) (hx : (queueEntries q).head? = some x) :
    0 < q.count ∧ queueFront q = .ok x := by
  have hpos : 0 < q.count := by
    rw [← queueEntries_length hq.slots]
    exact List.length_pos_of_mem (List.mem_of_mem_head? hx)
  obtain ⟨y, hy, hhead⟩ := queueFront_of_live hq hpos
  obtain rfl : y = x := Option.some.inj (hhead.symm.trans hx)
  exact ⟨hpos, hy⟩

theorem count_eq_zero_of_entries {q : SaQueue} (hq : q.InRange) (h : queueEntries q = []) : q.count = 0 := by
  rw [← queueEntries_length hq.slots, h, List.length_nil]

/-- A command put into an empty queue stands in the slot at the head. -/
theorem queuePush_empty {q : SaQueue} (f : List Byte) (id : CmdId) (hq : q.InRange) (hc : q.count = 0) :
    queuePush f id q = .ok { q with slots := q.slots.set q.head ⟨id, f⟩, count := 1 } := by
  have hslot : (q.head + q.count) % 4 = q.head := by rw [hc, Nat.add_zero, Nat.mod_eq_of_lt hq.head]
  rw [queuePush_room f id hq.slots (by omega), hslot, hc]

/-! The initialization step. -/

/-- The phase after the initialization step (R126). -/
def SaEngine.initPhase (e : SaEngine) : SaPhase :=
  match e.phase with
  | .start => .waitSettings
  | .waitSettings =>
    if e.version = .unknown then .waitSettings else if e.version = .v1 then .done else .waitPitFrequency
  | .waitPitFrequency => if e.pitFreq = none then .waitPitFrequency else .done
  | .done => .done

/-- The commands that the initialization step enqueues (R126). -/
def SaEngine.initAsks (c : Config) (e : SaEngine) : List Slot :=
  match e.phase with
  | .start => [⟨saIdGetSettings, saGetSettingsFrame⟩]
  | .waitSettings =>
    if e.version = .v2 ∨ e.version = .v21 then [⟨saIdSetFrequency, saSetFrequencyFrame c.saPitFlag⟩] else []
  | .waitPitFrequency => []
  | .done => []

theorem versionAtLeast2_iff {v : SaVersion} : versionAtLeast2 v = true ↔ v = .v2 ∨ v = .v21 := by
  cases v <;> decide

/-- An engine that the step leaves as it is stays in its phase. -/
theorem SaEngine.eq_with_phase {e : SaEngine} {p : SaPhase} (h : p = e.phase) : e = { e with phase := p } := by
  rw [h]

/-- The initialization step moves to its phase and enqueues what it asks; nothing else changes. -/
theorem saInitStep_eq {e : SaEngine} (c : Config) (hq : e.q.InRange) :
    ∃ q, saInitStep c e = .ok { e with phase := e.initPhase, q := q } ∧ e.q.Took (e.initAsks c) q := by
  obtain ⟨e', h⟩ := saInitStep_answers hq c
  suffices hcase : ∃ q, e' = { e with phase := e.initPhase, q := q } ∧ e.q.Took (e.initAsks c) q by
    obtain ⟨q, rfl, htook⟩ := hcase
    exact ⟨q, h, htook⟩
  have hkeep := SaQueue.Took.nil hq
  unfold SaEngine.initPhase SaEngine.initAsks
  rcases saInitStep_ok h with ⟨hp, q, hpush, rfl⟩ | ⟨hp, hv, rfl⟩ | ⟨hp, hv, q, hpush, rfl⟩ | ⟨hp, hv, rfl⟩ |
    ⟨hp, hfreq, rfl⟩ | ⟨hp, hfreq, rfl⟩ | ⟨hp, rfl⟩
  · exact ⟨q, by simp only [hp], by simpa only [hp] using .push hq hpush⟩
  · exact ⟨e'.q, e'.eq_with_phase (by simp [hp, hv]), by simpa [hp, hv] using hkeep⟩
  · have hv := versionAtLeast2_iff.1 hv
    have hphase : e.version ≠ .unknown ∧ e.version ≠ .v1 := by rcases hv with hv | hv <;> simp [hv]
    exact ⟨q, by simp [hp, hphase], by simpa [hp, hv] using .push hq hpush⟩
  · exact ⟨e.q, by simp [hp, hv], by simpa [hp, hv] using hkeep⟩
  · have hsome : e.pitFreq ≠ none := Option.isSome_iff_ne_none.1 hfreq
    exact ⟨e.q, by simp [hp, hsome], by simpa [hp] using hkeep⟩
  · exact ⟨e'.q, e'.eq_with_phase (by simp [hp, hfreq]), by simpa [hp] using hkeep⟩
  · exact ⟨e'.q, e'.eq_with_phase (by simp [hp]), by simpa [hp] using hkeep⟩

theorem saInitStep_done {c : Config} {e : SaEngine} (h : e.phase = .done) : saInitStep c e = .ok e := by
  simp only [saInitStep, h]

/-! The scheduler: one equation per branch (R124). -/

section Scheduler
variable {c : Config} {now : Nat} {e : SaEngine}

theorem saOutbound_resend {x : Slot} (ho : e.outstanding ≠ none) (hd : due c now e.lastTx c.saCmdTimeoutMs = true)
    (hx : queueFront e.q = .ok x) : saOutbound c now e = .ok ({ e with lastTx := some now }, some x.bytes) := by
  rw [saOutbound, if_pos ho, if_pos hd, hx]
  rfl

theorem saOutbound_wait (ho : e.outstanding ≠ none) (hd : ¬ due c now e.lastTx c.saCmdTimeoutMs = true) :
    saOutbound c now e = .ok (e, none) := by
  rw [saOutbound, if_pos ho, if_neg hd]

theorem saOutbound_send {x : Slot} (ho : e.outstanding = none) (hpos : 0 < e.q.count) (hx : queueFront e.q = .ok x) :
    saOutbound c now e = .ok ({ e with outstanding := some x.id, lastTx := some now }, some x.bytes) := by
  rw [saOutbound, if_neg (not_not.2 ho), if_pos hpos, hx]
  rfl

theorem saOutbound_ask {q : SaQueue} (ho : e.outstanding = none) (hc : e.q.count = 0) (hp : e.phase = .done)
    (hd : due c now e.lastTx c.saPollIntervalMs = true)
    (hq : queuePush saGetSettingsFrame saIdGetSettings e.q = .ok q) :
    saOutbound c now e = .ok ({ e with q := q }, none) := by
  rw [saOutbound, if_neg (not_not.2 ho), if_neg (by omega), if_pos ⟨hp, hd⟩, saEnqueue_of_push hq]
  rfl

theorem saOutbound_idle (ho : e.outstanding = none) (hc : e.q.count = 0)
    (hd : ¬ (e.phase = .done ∧ due c now e.lastTx c.saPollIntervalMs = true)) :
    saOutbound c now e = .ok (e, none) := by
  rw [saOutbound, if_neg (not_not.2 ho), if_neg (by omega), if_neg hd]

end Scheduler

/-! POLL. -/

/-- With no RX bytes a SmartAudio POLL is the initialization step and the scheduler (46_host_ops.md R161). -/
theorem exec_poll_nil {s : State} {e e₁ e₂ : SaEngine} {f : Option (List Byte)} (hs : s.engine = .sa e)
    (hinit : saInitStep s.cfg e = .ok e₁) (hout : saOutbound s.cfg s.now e₁ = .ok (e₂, f)) :
    exec (.poll []) s = .next (retOk (txSent f (setEngine (.sa e₂) s))) :=
  execPoll_sa hs (saPoll_eq_ok.2 ⟨e, e₁, rfl, hinit, hout⟩)

theorem saGetSettingsFrame_eq : saGetSettingsFrame = [0xAA, 0x55, 0x03, 0x00, 0x9F] := by
  decide +kernel

/-- Settles O40: the initialization step is `saInitStep_eq`, and each clause is one branch of the scheduler on the
engine after it. -/
theorem initializationPhases : Obligations.InitializationPhases := by
  intro s e hi lo hs hw hflag settings pitQuery waited phase asked queued sent holds quiet
  obtain ⟨q, hinit, htook⟩ := saInitStep_eq s.cfg hw.queueInRange
  have hsettings : settings = ⟨saIdGetSettings, saGetSettingsFrame⟩ := by rw [saGetSettingsFrame_eq]; rfl
  have hasked : e.initAsks s.cfg = asked := by
    rw [SaEngine.initAsks, ← hsettings, saSetFrequencyFrame_eq hflag]
    rfl
  have hentries : queueEntries q = queued := by rw [htook.entries, hasked]
  have hholds : holds q queued := ⟨hentries, htook.head, htook.inRange.slots⟩
  have hempty : queued = [] → q.count = 0 := fun h => count_eq_zero_of_entries htook.inRange (hentries.trans h)
  refine ⟨fun x ho hx => ?send, fun x ho hwait hx => ?resend, fun ho hwait => ?wait, fun ho hnil hdone hwait => ?ask,
    fun ho hnil hidle => ?idle⟩
  case send =>
    obtain ⟨hpos, hfront⟩ := queueFront_of_head? htook.inRange (hentries ▸ hx)
    exact ⟨q, hholds, exec_poll_nil hs hinit (saOutbound_send ho hpos hfront)⟩
  case resend =>
    obtain ⟨-, hfront⟩ := queueFront_of_head? htook.inRange (hentries ▸ hx)
    exact ⟨q, hholds, exec_poll_nil hs hinit (saOutbound_resend ho (due_iff.2 hwait) hfront)⟩
  case wait => exact ⟨q, hholds, exec_poll_nil hs hinit (saOutbound_wait ho (mt due_iff.1 hwait))⟩
  case ask =>
    obtain ⟨q', hq'⟩ := queuePush_answers htook.inRange.slots saGetSettingsFrame saIdGetSettings
    have htook' := SaQueue.Took.push htook.inRange hq'
    have hentries' : queueEntries q' = [settings] := by rw [htook'.entries, hentries, hnil, hsettings]; rfl
    exact ⟨q', ⟨hentries', htook'.head.trans htook.head, htook'.inRange.slots⟩,
      exec_poll_nil hs hinit (saOutbound_ask ho (hempty hnil) hdone (due_iff.2 hwait) hq')⟩
  case idle =>
    exact ⟨q, hnil ▸ hholds,
      exec_poll_nil hs hinit (saOutbound_idle ho (hempty hnil) (mt (And.imp_right due_iff.1) hidle))⟩

/-- INIT with a transport puts a fresh SmartAudio engine into the slot, when SmartAudio is selected (R158). -/
theorem execInit_sa_engine {s t : State} (hp : s.proto = .sa) (h : exec (.init true) s = .next t) :
    t.engine = .sa (freshSa t.cfg) := by
  rw [(exec_effect h).cfg]
  cases h
  rw [retOk_engine, createEngine_engine, hp]
  rfl

/-- Settles O39: the fresh engine asks for GET_SETTINGS into its empty queue, and the scheduler sends that front. -/
theorem firstSmartAudioPollAsksSettings : Obligations.FirstSmartAudioPollAsksSettings := by
  intro s t hp h
  have ht := execInit_sa_engine hp h
  obtain ⟨q, hinit, htook⟩ := saInitStep_eq t.cfg (freshSa_wf t.cfg).queueInRange
  have hentries : queueEntries q = [⟨0x01, [0xAA, 0x55, 0x03, 0x00, 0x9F]⟩] := by
    rw [htook.entries, ← saGetSettingsFrame_eq]
    rfl
  obtain ⟨hpos, hfront⟩ := queueFront_of_head? htook.inRange (by rw [hentries, List.head?_cons])
  exact ⟨_, _, exec_poll_nil ht hinit (saOutbound_send rfl hpos hfront), rfl, rfl, rfl, rfl, rfl, rfl, hentries⟩

/-- Settles O41: in `Done` the initialization step changes nothing, and each clause is one branch of the scheduler. -/
theorem outboundScheduler : Obligations.OutboundScheduler := by
  intro s e hs hw hdone sent waited
  have hq := hw.queueInRange
  have hinit : saInitStep s.cfg e = .ok e := saInitStep_done hdone
  have hsame : retOk (txSent none (setEngine (.sa e) s)) = { s with result := some ⟨true, 0⟩ } := by
    rw [txSent_none, setEngine_self hs]
    rfl
  refine ⟨fun ho hwait => ?wait, fun x ho hwait hx => ?resend, fun x ho hx => ?send, fun ho hc hwait => ?ask,
    fun ho hc hwait => ?idle⟩
  case wait => rw [exec_poll_nil hs hinit (saOutbound_wait ho (mt due_iff.1 hwait)), hsame]
  case resend =>
    obtain ⟨-, hfront⟩ := queueFront_of_head? hq hx
    exact exec_poll_nil hs hinit (saOutbound_resend ho (due_iff.2 hwait) hfront)
  case send =>
    obtain ⟨hpos, hfront⟩ := queueFront_of_head? hq hx
    exact exec_poll_nil hs hinit (saOutbound_send ho hpos hfront)
  case ask =>
    rw [← saGetSettingsFrame_eq]
    exact exec_poll_nil hs hinit (saOutbound_ask ho hc hdone (due_iff.2 hwait) (queuePush_empty _ _ hq hc))
  case idle => rw [exec_poll_nil hs hinit (saOutbound_idle ho hc fun h => hwait (due_iff.1 h.2)), hsame]

/-- Settles O42: the initialization step leaves the outstanding command's entry at the front, and the scheduler sends it
again or waits. -/
theorem outstandingCommandBlocksQueue : Obligations.OutstandingCommandBlocksQueue := by
  intro s t e o hs hw ho h
  obtain ⟨-, -, hout, -⟩ := id hw
  obtain ⟨hid, hsent⟩ := hout o ho
  obtain ⟨x, hx, -⟩ := Option.map_eq_some_iff.1 hid
  obtain ⟨last, hlast⟩ := Option.ne_none_iff_exists'.1 hsent
  obtain ⟨q, hinit, htook⟩ := saInitStep_eq s.cfg hw.queueInRange
  have hx' := htook.front hx
  have hne : e.outstanding ≠ none := by rw [ho]; exact Option.some_ne_none o
  by_cases hd : due s.cfg s.now e.lastTx s.cfg.saCmdTimeoutMs = true
  · obtain ⟨-, hfront⟩ := queueFront_of_head? htook.inRange hx'
    cases h.symm.trans (exec_poll_nil hs hinit (saOutbound_resend hne hd hfront))
    exact ⟨⟨_, rfl, ho, hx'.trans hx.symm⟩, .inr ⟨x, last, hx, hlast, due_some_iff.1 (hlast ▸ hd), rfl⟩⟩
  · cases h.symm.trans (exec_poll_nil hs hinit (saOutbound_wait hne hd))
    exact ⟨⟨_, rfl, ho, hx'.trans hx.symm⟩, .inl rfl⟩

end Sys2Proof.Machine
end

section
/-! PROOFS. A ready engine stays ready (43_sa_engine.md R127; 45_tramp_engine.md R149): SmartAudio's `Done` is never left
and a known version never forgotten, and no TRAMP rule clears `ready`. -/

namespace Sys2Proof.Machine

/-! SmartAudio. -/

theorem saReady_iff {e : SaEngine} : saReady e = true ↔ e.phase = .done ∧ e.version ≠ .unknown :=
  decide_eq_true_iff

/-- The change leaves a ready SmartAudio engine ready. -/
def SaStaysReady (e e' : SaEngine) : Prop := saReady e = true → saReady e' = true

theorem SaStaysReady.refl (e : SaEngine) : SaStaysReady e e := id

theorem SaStaysReady.of_same {e e' : SaEngine} (hp : e'.phase = e.phase) (hv : e'.version = e.version) :
    SaStaysReady e e' := by
  rw [SaStaysReady, saReady, saReady, hp, hv]
  exact id

/-- A reply keeps the phase, and the version it sets is a known one (42_sa_frames.md R114). -/
theorem saDispatch_staysReady {c : Config} {r : Byte} {p : List Byte} {e e' : SaEngine}
    (h : saDispatch c r p e = .ok e') : SaStaysReady e e' := by
  obtain ⟨v, ch, pw, m, f, pf, heq, hv⟩ := saRespond_eq c r p e
  rw [saDispatch, heq] at h
  intro hr
  obtain ⟨hphase, hver⟩ := saReady_iff.1 hr
  have hknown : v ≠ .unknown := hv.elim (fun hsame => hsame ▸ hver) id
  rcases saComplete_ok h with ⟨-, rfl⟩ | ⟨o, -, -, -, rfl⟩
  · exact saReady_iff.2 ⟨hphase, hknown⟩
  · exact saReady_iff.2 ⟨hphase, hknown⟩

/-- Only an accepted reply can change more than the receive registers (R106 to R111). -/
theorem saRxByte_staysReady {c : Config} {d : Byte} {e e' : SaEngine} (h : saRxByte c d e = .ok e') :
    SaStaysReady e e' := by
  unfold saRxByte at h
  split at h
  · cases h; unfold saRxPreamble1; split <;> exact .of_same rfl rfl
  · cases h; unfold saRxPreamble2; split <;> exact .of_same rfl rfl
  · cases h; exact .of_same rfl rfl
  · cases h; unfold saRxLength; split <;> exact .of_same rfl rfl
  · obtain ⟨-, rfl⟩ := saRxPayload_ok h; exact .of_same rfl rfl
  · obtain ⟨-, ⟨-, hd⟩ | ⟨-, rfl⟩⟩ := saRxCrc_ok h
    · exact saDispatch_staysReady (e := { e with rx := .waitPreamble1 }) hd
    · exact .of_same rfl rfl

theorem saRxList_staysReady {c : Config} {ds : List Byte} {e e' : SaEngine} (h : saRxList c ds e = .ok e') :
    SaStaysReady e e' :=
  saRxList_keeps (P := SaStaysReady e) (fun _ _ _ hp hx => saRxByte_staysReady hx ∘ hp) (.refl e) h

/-- In `Done` the initialization step changes nothing (43_sa_engine.md R126). -/
theorem saInitStep_staysReady {c : Config} {e e' : SaEngine} (h : saInitStep c e = .ok e') : SaStaysReady e e' := by
  intro hr
  cases h.symm.trans (saInitStep_done (saReady_iff.1 hr).1)
  exact hr

theorem saOutbound_staysReady {c : Config} {now : Nat} {e e' : SaEngine} {f : Option (List Byte)}
    (h : saOutbound c now e = .ok (e', f)) : SaStaysReady e e' := by
  rcases saOutbound_ok h with ⟨-, -, _, -, rfl, -⟩ | ⟨-, -, _, -, rfl, -⟩ | ⟨-, -, -, -, _, -, rfl, -⟩ | ⟨rfl, -⟩
  · exact .of_same rfl rfl
  · exact .of_same rfl rfl
  · exact .of_same rfl rfl
  · exact .refl _

theorem SaMove.staysReady {c : Config} {now : Nat} {e e' : SaEngine} (h : SaMove c now e e') : SaStaysReady e e' := by
  cases h with
  | poll h =>
    obtain ⟨e1, e2, h1, h2, h3⟩ := saPoll_eq_ok.1 h
    exact saOutbound_staysReady h3 ∘ saInitStep_staysReady h2 ∘ saRxList_staysReady h1
  | enqueue hv h => exact .of_same rfl rfl
  | reply h => exact saDispatch_staysReady h
  | receive h => exact saRxList_staysReady h

/-! TRAMP. -/

/-- The change leaves a ready TRAMP engine ready. -/
def TrStaysReady (e e' : TrEngine) : Prop := e.ready = true → e'.ready = true

theorem TrStaysReady.of_same {e e' : TrEngine} (h : e'.ready = e.ready) : TrStaysReady e e' := h.trans

theorem trRespReset_staysReady (mn mx mp : Half) (e : TrEngine) : TrStaysReady e (trRespReset mn mx mp e) := by
  unfold trRespReset
  split <;> exact .of_same rfl

/-- A status reply sets `ready` or leaves it (44_tramp_frames.md R143). -/
theorem trRespStatus_staysReady (freq power : Half) (ctrl : Byte) (pit : Bool) (act : Half) (e : TrEngine) :
    TrStaysReady e (trRespStatus freq power ctrl pit act e) := by
  intro hr
  by_cases hs : e.state = .init <;> simp [trRespStatus, hs, hr]

theorem trRespTemp_staysReady (t : Half) (e : TrEngine) : TrStaysReady e (trRespTemp t e) := by
  unfold trRespTemp
  split <;> exact .of_same rfl

theorem trRxByte_staysReady {c : Config} {d : Byte} {e e' : TrEngine} (h : trRxByte c d e = .ok e') :
    TrStaysReady e e' :=
  trRxByte_relates (R := TrStaysReady) (fun _ _ _ _ _ => id) (fun e mn mx mp => trRespReset_staysReady mn mx mp e)
    (fun e freq power ctrl pit act => trRespStatus_staysReady freq power ctrl pit act e)
    (fun e t => trRespTemp_staysReady t e) (fun _ _ _ hab hbc => hbc ∘ hab) h

theorem trRxList_staysReady {c : Config} {ds : List Byte} {e e' : TrEngine} (h : trRxList c ds e = .ok e') :
    TrStaysReady e e' :=
  trRxList_keeps (P := TrStaysReady e) (fun _ _ _ hp hx => trRxByte_staysReady hx ∘ hp) id h

theorem trMonitorPoll_ready (c : Config) (now : Nat) (e : TrEngine) : (trMonitorPoll c now e).1.ready = e.ready := by
  rcases trMonitorPoll_cases c now e with ⟨-, h⟩ | ⟨-, h⟩ <;> rw [h]

theorem trMonitor_ready (c : Config) (now : Nat) (e : TrEngine) : (trMonitor c now e).1.ready = e.ready := by
  rcases trMonitor_cases c now e with ⟨_, -, -, h⟩ | ⟨-, -, h⟩ | ⟨-, h⟩ <;> rw [h]
  · exact trMonitorPoll_ready c now { e with retry := trMaxRetry }
  · exact trMonitorPoll_ready c now e

theorem trStep_ready (c : Config) (now : Nat) (e : TrEngine) : (trStep c now e).1.ready = e.ready := by
  rcases trStep_cases c now e with ⟨-, -, h⟩ | ⟨-, -, h⟩ | ⟨-, -, h⟩ | ⟨-, -, h⟩ | ⟨-, -, h⟩ | h <;> rw [h]
  exact trMonitor_ready c now e

theorem trWrite_ready (c : Config) (now : Nat) (f : List Byte) (e : TrEngine) :
    (trWrite c now f e).1.ready = e.ready := by
  rcases trWrite_cases c now f e with ⟨-, h⟩ | ⟨-, h⟩ <;> rw [h]

theorem TrMove.staysReady {c : Config} {now : Nat} {e e' : TrEngine} (h : TrMove c now e e') : TrStaysReady e e' := by
  cases h with
  | poll h =>
    obtain ⟨e1, h1, heq⟩ := trPoll_eq_ok.1 h
    obtain ⟨rfl, -⟩ := Prod.ext_iff.1 heq
    exact (TrStaysReady.of_same (trStep_ready c now e1)) ∘ trRxList_staysReady h1
  | @setFrequency v _ f h =>
    unfold trSetFrequency at h
    split at h
    · obtain ⟨rfl, -⟩ := Prod.ext_iff.1 (Option.some.inj h)
      exact .of_same (trWrite_ready c now _ { e with desFreq := v, retry := trMaxRetry })
    · cases h
  | @setPower mw _ f h =>
    obtain ⟨rfl, -⟩ := Prod.ext_iff.1 (Option.some.inj h)
    exact .of_same (trWrite_ready c now _ { e with desPower := mw, retry := trMaxRetry })
  | setPitMode h =>
    obtain ⟨rfl, -⟩ := Prod.ext_iff.1 (Option.some.inj h)
    exact .of_same rfl
  | replyReset mn mx mp => exact trRespReset_staysReady mn mx mp e
  | replyStatus freq power ctrl pit act => exact trRespStatus_staysReady freq power ctrl pit act e
  | replyTemp temp => exact trRespTemp_staysReady temp e
  | receive h => exact trRxList_staysReady h

/-! The slot, under an instruction that neither creates nor discards an engine. -/

/-- The slot is as before, or its engine makes a move: `SlotEffect` without a created or a discarded engine. -/
inductive EngineMoves (s t : State) : Prop where
  | keep (he : t.engine = s.engine)
  | sa {e e' : SaEngine} (hs : s.engine = .sa e) (ht : t.engine = .sa e') (h : SaMove s.cfg s.now e e')
  | tramp {e e' : TrEngine} (hs : s.engine = .tramp e) (ht : t.engine = .tramp e') (h : TrMove s.cfg s.now e e')

theorem engineMoves_of_query {s t : State} (h : ∃ ok data, t = ret ok data s) : EngineMoves s t := by
  obtain ⟨ok, data, rfl⟩ := h
  exact .keep rfl

theorem engineMoves_of_regRead {id : Byte} {s t : State} (h : execRegRead id s = .next t) : EngineMoves s t := by
  rcases execRegRead_next h with ⟨-, rfl⟩ | ⟨v, -, rfl⟩
  · exact .keep rfl
  · exact .keep rfl

theorem engineMoves_of_poll {rx : List Byte} {s t : State} (h : execPoll rx s = .next t) : EngineMoves s t := by
  rcases execPoll_next h with ⟨-, rfl⟩ | ⟨e, e', f, hs, he, rfl⟩ | ⟨e, e', f, hs, he, rfl⟩
  · exact .keep rfl
  · exact .sa hs (by simp) (.poll he)
  · exact .tramp hs (by simp) (.poll he)

theorem engineMoves_of_setter {i : Instr} {sa : Config → SaEngine → Except Fault (Option SaEngine)}
    {tramp : Config → Nat → TrEngine → Option (TrEngine × Option (List Byte))} (hi : Setter i sa tramp) {s t : State}
    (hsa : ∀ e e', sa s.cfg e = .ok (some e') → SaMove s.cfg s.now e e')
    (htr : ∀ e e' f, tramp s.cfg s.now e = some (e', f) → TrMove s.cfg s.now e e') (h : exec i s = .next t) :
    EngineMoves s t := by
  cases hs : s.engine with
  | none =>
    cases (hi.none s hs).symm.trans h
    exact .keep rfl
  | sa e =>
    rcases finishSaSetter_next ((hi.sa s e hs).symm.trans h) with ⟨-, rfl⟩ | ⟨e', he, rfl⟩
    · exact .keep rfl
    · exact .sa hs rfl (hsa e e' he)
  | tramp e =>
    rcases finishTrSetter_next ((hi.tramp s e hs).symm.trans h) with ⟨-, rfl⟩ | ⟨e', f, he, rfl⟩
    · exact .keep rfl
    · exact .tramp hs (by simp) (htr e e' f he)

theorem engineMoves_of_buildSa {f : Option (List Byte)} {s t : State} (h : buildSa f s = .next t) :
    EngineMoves s t := by
  rcases buildSa_next h with ⟨-, rfl⟩ | ⟨-, rfl⟩
  · exact .keep rfl
  · exact .keep rfl

theorem engineMoves_of_buildTr {f : Option (List Byte)} {s t : State} (h : buildTr f s = .next t) :
    EngineMoves s t := by
  rcases buildTr_next h with ⟨-, rfl⟩ | ⟨-, rfl⟩
  · exact .keep rfl
  · exact .keep rfl

theorem engineMoves_of_saDispatch {r : Byte} {p : List Byte} {s t : State}
    (h : onSa (saDispatch s.cfg r p) s = .next t) : EngineMoves s t := by
  rcases onSa_next h with ⟨-, rfl⟩ | ⟨e, e', hs, he, rfl⟩
  · exact .keep rfl
  · exact .sa hs rfl (.reply he)

theorem engineMoves_of_trReply {r : TrEngine → TrEngine} {s t : State} (hr : ∀ e, TrMove s.cfg s.now e (r e))
    (h : onTr (fun e => .ok (r e)) s = .next t) : EngineMoves s t := by
  rcases onTr_next h with ⟨-, rfl⟩ | ⟨e, e', hs, he, rfl⟩
  · exact .keep rfl
  · cases he
    exact .tramp hs rfl (hr e)

/-- Every instruction but INIT with a transport and SWITCH_PROTOCOL keeps the slot or moves its engine. -/
theorem exec_engineMoves {i : Instr} {s t : State} (hi : replacesEngine i = false) (h : exec i s = .next t) :
    EngineMoves s t := by
  cases i with
  | init present =>
    cases hi
    cases h
    exact .keep rfl
  | poll rx => exact engineMoves_of_poll h
  | isReady => exact engineMoves_of_query (execIsReady_next h)
  | setFreq mhz =>
    exact engineMoves_of_setter (setter_setFreq mhz) (fun _ _ => saMove_of_saSetFrequency)
      (fun _ _ _ => .setFrequency) h
  | setPower mw =>
    exact engineMoves_of_setter (setter_setPower mw) (fun _ _ => saMove_of_saSetPower) (fun _ _ _ => .setPower) h
  | setPit enable =>
    exact engineMoves_of_setter (setter_setPit enable) (fun _ _ => saMove_of_saSetPitMode)
      (fun _ _ _ => .setPitMode) h
  | setBandCh band channel =>
    exact engineMoves_of_setter (setter_setBandCh band channel) (fun _ _ => saMove_of_saSetBandCh)
      (fun _ _ _ => nofun) h
  | protocolInUse => cases h; exact .keep rfl
  | switchProtocol sel => cases hi
  | bandChToFreq band channel => cases h; exact .keep rfl
  | crc8 m => cases h; exact .keep rfl
  | trampChecksum f => exact engineMoves_of_query (execTrampChecksum_next h)
  | regRead id => exact engineMoves_of_regRead h
  | saValidate m => exact engineMoves_of_query (execSaValidate_next h)
  | trampValidate f => exact engineMoves_of_query (execTrampValidate_next h)
  | saGetSettings => exact engineMoves_of_buildSa h
  | saSetPower pw => exact engineMoves_of_buildSa h
  | saSetChannel idx => exact engineMoves_of_buildSa h
  | saSetFrequency v => exact engineMoves_of_buildSa h
  | saSetMode m => exact engineMoves_of_buildSa h
  | saReplySettingsV1 p => exact engineMoves_of_saDispatch h
  | saReplySettingsV2 p => exact engineMoves_of_saDispatch h
  | saReplySettingsV21 p => exact engineMoves_of_saDispatch h
  | saReplySetPower p => exact engineMoves_of_saDispatch h
  | saReplySetChannel p => exact engineMoves_of_saDispatch h
  | saReplySetFrequency p => exact engineMoves_of_saDispatch h
  | saReplySetMode p => exact engineMoves_of_saDispatch h
  | saReplyOther code p => exact engineMoves_of_saDispatch h
  | trResetQuery => exact engineMoves_of_buildTr h
  | trStatusQuery => exact engineMoves_of_buildTr h
  | trTempQuery => exact engineMoves_of_buildTr h
  | trSetFrequency mhz => exact engineMoves_of_buildTr h
  | trSetPower mw => exact engineMoves_of_buildTr h
  | trSetActive pitOn => exact engineMoves_of_buildTr h
  | trReplyReset mn mx mp => exact engineMoves_of_trReply (fun _ => .replyReset mn mx mp) h
  | trReplyStatus freq power ctrl pit act =>
    exact engineMoves_of_trReply (fun _ => .replyStatus freq power ctrl pit act) h
  | trReplyTemp temp => exact engineMoves_of_trReply (fun _ => .replyTemp temp) h

/-- Settles O59: the instruction keeps the slot or moves its engine, and every move of an engine leaves a ready one
ready. -/
theorem readyIsSticky : Obligations.ReadyIsSticky := by
  intro i s t hi hr h
  cases exec_engineMoves hi h with
  | keep he => rwa [readyFlag, he]
  | sa hs ht hm =>
    simp only [readyFlag, hs, ht] at hr ⊢
    exact hm.staysReady hr
  | tramp hs ht hm =>
    simp only [readyFlag, hs, ht] at hr ⊢
    exact hm.staysReady hr

end Sys2Proof.Machine
end

section
/-! PROOFS. The TRAMP request builders and replies (44_tramp_frames.md R133 to R135, R142 to R144): a builder hands out
its 16-byte frame and a reply's rule changes the engine, each with nothing else of the state written. -/

namespace Sys2Proof.Machine

/-! Requests. -/

/-- A query carries the parameter 0, so its checksum is its code (R134). -/
theorem trFrame_query (code : Byte) :
    trFrame code 0 = [0x0F, code, 0, 0, 0, 0, 0, 0, 0, 0, 0, 0, 0, 0, code, 0] := by
  have hsum : code + 0 + 0 = code := by simp
  rw [trFrame_eq (hi := 0) (lo := 0) (by decide), hsum]

theorem buildTr_query {s : State} {e : TrEngine} (hs : s.engine = .tramp e) (code : Byte) :
    buildTr (some (trFrame code 0)) s =
      .next { s with built := some [0x0F, code, 0, 0, 0, 0, 0, 0, 0, 0, 0, 0, 0, 0, code, 0] } := by
  rw [trFrame_query]
  exact buildTr_of_tramp hs

/-- A command carries its parameter low byte first (R135). -/
theorem buildTr_command {s : State} {e : TrEngine} {p : Half} {hi lo : Byte} (hs : s.engine = .tramp e)
    (hp : p.toNat = hi.toNat * 256 + lo.toNat) (code : Byte) :
    buildTr (some (trFrame code p)) s =
      .next { s with built := some [0x0F, code, lo, hi, 0, 0, 0, 0, 0, 0, 0, 0, 0, 0, code + lo + hi, 0] } := by
  rw [trFrame_eq hp]
  exact buildTr_of_tramp hs

/-- Settles O25: three queries and three commands, of which set-active carries the parameter of its pit mode. -/
theorem trampRequestFrames : Obligations.TrampRequestFrames := by
  intro s e hs
  refine ⟨buildTr_query hs _, buildTr_query hs _, buildTr_query hs _, fun p hi lo hp => ?commands⟩
  case commands =>
    refine ⟨buildTr_command hs hp _, buildTr_command hs hp _, fun on hon => ?active⟩
    case active =>
      obtain rfl : p = trPitParam s.cfg on := hon
      exact buildTr_command hs hp _

/-! Replies. -/

/-- A reply's rule changes the engine and nothing else of the state. -/
theorem onTr_rule {r : TrEngine → TrEngine} {s : State} {e e' : TrEngine} (hs : s.engine = .tramp e) (hr : r e = e') :
    onTr (fun e => .ok (r e)) s = .next { s with engine := .tramp e' } :=
  onTr_of_ok hs (congrArg Except.ok hr)

/-- A rule that leaves the engine as it is leaves the state as it is. -/
theorem onTr_rule_same {r : TrEngine → TrEngine} {s : State} {e : TrEngine} (hs : s.engine = .tramp e)
    (hr : r e = e) : onTr (fun e => .ok (r e)) s = .next s := by
  rw [onTr_rule hs hr, ← hs]

theorem trRespReset_zero {mn mx mp : Half} (h : mn = 0 ∨ mx = 0 ∨ mp = 0) (e : TrEngine) :
    trRespReset mn mx mp e = e := if_pos h

theorem trRespReset_nonzero {mn mx mp : Half} (hmn : mn ≠ 0) (hmx : mx ≠ 0) (hmp : mp ≠ 0) (e : TrEngine) :
    trRespReset mn mx mp e = { e with
      minFreq := mn, maxFreq := mx, maxPower := mp, state := if e.state = .offline then .init else e.state } :=
  if_neg (not_or.2 ⟨hmn, not_or.2 ⟨hmx, hmp⟩⟩)

theorem trRespTemp_eq (t : Half) (e : TrEngine) :
    trRespTemp t e = { e with temp := if t = 0 then e.temp else t } := by
  by_cases ht : t = 0
  · rw [trRespTemp, if_neg (not_not.2 ht), if_pos ht]
  · rw [trRespTemp, if_pos ht, if_neg ht]

/-- Settles O43: a reply row does its rule to the engine; the rule's branches are the zero field and the zero
temperature. -/
theorem trampReplies : Obligations.TrampReplies := by
  intro s e mn mx mp temp freq power act ctrl pit hs
  exact ⟨fun h => onTr_rule_same hs (trRespReset_zero h e),
    fun hmn hmx hmp => onTr_rule hs (trRespReset_nonzero hmn hmx hmp e),
    onTr_rule (r := trRespStatus freq power ctrl pit act) hs rfl,
    onTr_rule hs (trRespTemp_eq temp e)⟩

end Sys2Proof.Machine
end

section
/-! PROOFS. The TRAMP receiver where it does not dispatch (44_tramp_frames.md R137 to R140): bytes before the last of a
frame, skipped headers, rejected codes, and whole frames with a wrong checksum or terminator. -/

namespace Sys2Proof.Machine

/-! One byte. -/

theorem trRxByte_skipped {c : Config} {d : Byte} {e : TrEngine} (hs : e.rx = .waitHeader) (hd : d ≠ 0x0F) :
    trRxByte c d e = .ok e := by
  simp only [trRxByte, hs, trRxHeader, if_neg hd]

theorem trRxByte_rejected {c : Config} {d : Byte} {e : TrEngine} (hs : e.rx = .waitResponseCode)
    (hd : d ∉ trReplyCodes) : trRxByte c d e = .ok { e with rxCount := 0, rx := .waitHeader } := by
  simp only [trRxByte, hs, trRxCode, if_neg hd]

theorem mem_trReplyCodes {d : Byte} : d ∈ trReplyCodes ↔ d = 0x72 ∨ d = 0x76 ∨ d = 0x73 := by
  simp only [trReplyCodes, trCodeReset, trCodeStatus, trCodeTemp, List.mem_cons, List.not_mem_nil, or_false]

/-- A second header byte is a rejected code, so the code after it is skipped as no header (R138). -/
theorem trRxList_doubled_header {c : Config} {e : TrEngine} (hs : e.rx = .waitHeader) (hl : e.rxBuf.length = 16) :
    trRxList c [0x0F, 0x0F, 0x76] e = .ok { e with rxBuf := e.rxBuf.set 0 0x0F, rxCount := 0 } := by
  rw [trRxList_cons_of_ok _ (trRxByte_header hs hl), trRxList_cons_of_ok _ (trRxByte_rejected rfl (by decide)),
    trRxList_singleton, trRxByte_skipped rfl (by decide), hs]

/-- Settles O44: each receive state's two branches, and their run on a doubled header. -/
theorem trampHeaderAndCodeBytes : Obligations.TrampHeaderAndCodeBytes := by
  intro c e d hl
  refine ⟨fun hs => ?header, fun hs => ?code, fun hs hcount => ?data, fun hs => trRxList_doubled_header hs hl⟩
  case header =>
    split
    · next hd => rw [hd, trRxByte_header hs hl]
    · next hd => exact trRxByte_skipped hs hd
  case code =>
    split
    · next hd => exact trRxByte_code hs (mem_trReplyCodes.2 hd) hl
    · next hd => exact trRxByte_rejected hs (mt mem_trReplyCodes.1 hd)
  case data => rw [trRxByte_data hs (by omega), if_neg (by omega)]

/-! A whole frame. -/

/-- A frame in the buffer that is not valid is counted (R140). -/
theorem trValidate_of_invalid {c : Config} {e : TrEngine} (hl : e.rxBuf.length = 16)
    (hbad : ¬ (e.rxBuf[14]? = some (trampChecksum e.rxBuf) ∧ e.rxBuf[15]? = some 0x00)) :
    trValidate c e = .ok { e with rx := .waitHeader, rxCount := 0, badFrame := (e.badFrame + 1) % 2 ^ c.cntWidth } := by
  obtain ⟨e', h⟩ := trValidate_answers hl c
  rcases trValidate_ok h with ⟨-, hchk, hterm⟩ | ⟨rfl, -⟩
  · exact absurd ⟨hchk, hterm⟩ hbad
  · exact h

/-- Settles O46: the frame stands in the buffer when it is validated, and is found invalid. -/
theorem trampReceiverDiscardsBadFrame : Obligations.TrampReceiverDiscardsBadFrame := by
  intro c e code d hwf hs hcode hd hbad
  obtain ⟨⟨hl, hcount, -, -⟩, -⟩ := hwf
  rw [trRxList_frame hcode hd hs hl, trValidate_of_invalid (by simp [hd]) hbad, ← hs, ← hcount hs]

end Sys2Proof.Machine
end

section
/-! PROOFS. The TRAMP engine's step in a POLL without RX bytes (45_tramp_engine.md R145 to R147): one equation per state
once its period has passed, one for a period that has not, and the convergence check by the differences it finds. -/

namespace Sys2Proof.Machine

/-! A period that has not passed. -/

/-- How long the step of each state waits after the last frame (R146). -/
def TrEngine.waitPeriod (c : Config) (e : TrEngine) : Nat :=
  match e.state with
  | .offline => c.trInitPeriodMs
  | .init => c.trInitPeriodMs
  | .monFreqPwrPit => trMinPeriodMs
  | .monTemp => trMinPeriodMs
  | .config => trMinPeriodMs

/-- The states after `Init`. -/
def TrEngine.Online (e : TrEngine) : Prop := e.state = .monFreqPwrPit ∨ e.state = .monTemp ∨ e.state = .config

theorem TrEngine.waitPeriod_online {e : TrEngine} (h : e.Online) (c : Config) : e.waitPeriod c = 200 := by
  rcases h with hs | hs | hs <;> rw [waitPeriod, hs] <;> rfl

theorem TrEngine.waitPeriod_offline_or_init {e : TrEngine} (h : e.state = .offline ∨ e.state = .init) (c : Config) :
    e.waitPeriod c = c.trInitPeriodMs := by
  rcases h with hs | hs <;> rw [waitPeriod, hs]

/-- Before the period has passed the step does nothing, whatever the state. -/
theorem trStep_waiting {c : Config} {now : Nat} {e : TrEngine} (h : ¬ due c now e.lastReq (e.waitPeriod c) = true) :
    trStep c now e = (e, none) := by
  unfold TrEngine.waitPeriod at h
  unfold trStep
  split <;> next hs => rw [hs] at h; exact if_neg h

/-! A period that has passed. -/

section Due
variable {c : Config} {now : Nat} {e : TrEngine}

theorem trStep_offline (hs : e.state = .offline) (hd : due c now e.lastReq c.trInitPeriodMs = true) :
    trStep c now e = ({ e with lastReq := some now }, some trResetQueryFrame) := by
  have hstep : trStep c now e =
      if due c now e.lastReq c.trInitPeriodMs then trSend now trResetQueryFrame e else (e, none) := by
    rw [trStep, hs]
  exact hstep.trans (if_pos hd)

theorem trStep_init (hs : e.state = .init) (hd : due c now e.lastReq c.trInitPeriodMs = true) :
    trStep c now e = ({ e with lastReq := some now, lastStatus := some now }, some trStatusQueryFrame) := by
  have hstep : trStep c now e =
      if due c now e.lastReq c.trInitPeriodMs then trSendStatus now e else (e, none) := by
    rw [trStep, hs]
  exact hstep.trans (if_pos hd)

theorem trStep_monTemp (hs : e.state = .monTemp) (hd : due c now e.lastReq 200 = true) :
    trStep c now e = ({ e with lastReq := some now, state := .monFreqPwrPit }, some trTempQueryFrame) := by
  rw [trStep, hs]
  exact if_pos hd

theorem trStep_config (hs : e.state = .config) (hd : due c now e.lastReq 200 = true) :
    trStep c now e = ({ e with lastReq := some now, lastStatus := some now, state := .monFreqPwrPit },
      some trStatusQueryFrame) := by
  rw [trStep, hs]
  exact if_pos hd

theorem trStep_monitor (hs : e.state = .monFreqPwrPit) (hd : due c now e.lastReq 200 = true) :
    trStep c now e = trMonitor c now e := by
  rw [trStep, hs]
  exact if_pos hd

/-! The monitor (R146). -/

theorem trMonitor_corrects {f : List Byte} (hr : 0 < e.retry) (hf : trCorrection c e = some f) :
    trMonitor c now e = ({ e with lastReq := some now, retry := e.retry - 1, state := .config }, some f) := by
  rw [trMonitor, if_pos hr, hf]
  rfl

theorem trMonitor_converged (hr : 0 < e.retry) (hf : trCorrection c e = none) :
    trMonitor c now e = trMonitorPoll c now { e with retry := 20 } := by
  rw [trMonitor, if_pos hr, hf]
  rfl

theorem trMonitor_exhausted (hr : e.retry = 0) : trMonitor c now e = trMonitorPoll c now { e with retry := 0 } := by
  rw [trMonitor, if_neg (by omega), ← hr]

theorem trMonitorPoll_due (hd : due c now e.lastStatus 1000 = true) : trMonitorPoll c now e =
    ({ e with lastReq := some now, lastStatus := some now, state := .monTemp }, some trStatusQueryFrame) :=
  if_pos hd

theorem trMonitorPoll_waiting (hd : ¬ due c now e.lastStatus 1000 = true) : trMonitorPoll c now e = (e, none) :=
  if_neg hd

end Due

/-! The convergence check (R147). -/

/-- The race lock, which hides frequency and power (R42). -/
def TrEngine.Locked (c : Config) (e : TrEngine) : Prop := e.ctrlFlags &&& c.trRaceLockMask ≠ 0

/-- The desired frequency is one to send (R147). -/
def TrEngine.FreqDiffers (c : Config) (e : TrEngine) : Prop := ¬ e.Locked c ∧ e.desFreq ≠ 0 ∧ e.desFreq ≠ e.obsFreq

/-- The desired power is one to send (R147). -/
def TrEngine.PowerDiffers (c : Config) (e : TrEngine) : Prop := ¬ e.Locked c ∧ e.desPower ≠ 0 ∧ e.desPower ≠ e.obsPower

/-- A pit mode is desired that is not the observed one, race-locked or not (R147). -/
def TrEngine.PitDiffers (e : TrEngine) : Prop :=
  (e.desPit = .on ∧ e.obsPit = false) ∨ (e.desPit = .off ∧ e.obsPit = true)

theorem raceLocked_iff {c : Config} {e : TrEngine} : raceLocked c e = true ↔ e.Locked c := decide_eq_true_iff

theorem not_raceLocked_iff {c : Config} {e : TrEngine} : (!raceLocked c e) = true ↔ ¬ e.Locked c := by
  rw [← raceLocked_iff, Bool.not_eq_true', Bool.not_eq_true]

theorem pitDiffers_iff {e : TrEngine} :
    e.desPit ≠ .unset ∧ decide (e.desPit = .on) ≠ e.obsPit ↔ e.PitDiffers := by
  unfold TrEngine.PitDiffers
  cases e.desPit <;> cases e.obsPit <;> decide

section Correction
variable {c : Config} {e : TrEngine}

theorem trCorrection_freq (hf : e.FreqDiffers c) : trCorrection c e = some (trSetFrequencyFrame e.desFreq) :=
  if_pos ⟨not_raceLocked_iff.2 hf.1, hf.2⟩

/-- With no frequency to correct the check goes on to the power. -/
theorem trCorrection_of_not_freq (hf : ¬ e.FreqDiffers c) : trCorrection c e =
    if !raceLocked c e ∧ e.desPower ≠ 0 ∧ e.desPower ≠ e.obsPower then some (trSetPowerFrame e.desPower)
    else if e.desPit ≠ .unset ∧ decide (e.desPit = .on) ≠ e.obsPit then
      some (trSetActiveFrame c (decide (e.desPit = .on)))
    else none :=
  if_neg fun h => hf ⟨not_raceLocked_iff.1 h.1, h.2⟩

theorem trCorrection_power (hf : ¬ e.FreqDiffers c) (hp : e.PowerDiffers c) :
    trCorrection c e = some (trSetPowerFrame e.desPower) := by
  rw [trCorrection_of_not_freq hf]
  exact if_pos ⟨not_raceLocked_iff.2 hp.1, hp.2⟩

/-- With no power to correct either, the pit mode is left. -/
theorem trCorrection_of_not_power (hf : ¬ e.FreqDiffers c) (hp : ¬ e.PowerDiffers c) : trCorrection c e =
    if e.desPit ≠ .unset ∧ decide (e.desPit = .on) ≠ e.obsPit then
      some (trSetActiveFrame c (decide (e.desPit = .on)))
    else none := by
  rw [trCorrection_of_not_freq hf]
  exact if_neg fun h => hp ⟨not_raceLocked_iff.1 h.1, h.2⟩

theorem trCorrection_pit (hf : ¬ e.FreqDiffers c) (hp : ¬ e.PowerDiffers c) (hi : e.PitDiffers) :
    trCorrection c e = some (trSetActiveFrame c (decide (e.desPit = .on))) := by
  rw [trCorrection_of_not_power hf hp, if_pos (pitDiffers_iff.2 hi)]

theorem trCorrection_none (hf : ¬ e.FreqDiffers c) (hp : ¬ e.PowerDiffers c) (hi : ¬ e.PitDiffers) :
    trCorrection c e = none := by
  rw [trCorrection_of_not_power hf hp, if_neg (mt pitDiffers_iff.1 hi)]

/-- A correction is for the first difference. -/
theorem trCorrection_eq_some {f : List Byte} (h : trCorrection c e = some f) :
    (e.FreqDiffers c ∧ f = trSetFrequencyFrame e.desFreq) ∨
    (¬ e.FreqDiffers c ∧ e.PowerDiffers c ∧ f = trSetPowerFrame e.desPower) ∨
    (¬ e.FreqDiffers c ∧ ¬ e.PowerDiffers c ∧ e.PitDiffers ∧
      f = trSetActiveFrame c (decide (e.desPit = .on))) := by
  by_cases hf : e.FreqDiffers c
  · exact .inl ⟨hf, Option.some.inj (h.symm.trans (trCorrection_freq hf))⟩
  by_cases hp : e.PowerDiffers c
  · exact .inr (.inl ⟨hf, hp, Option.some.inj (h.symm.trans (trCorrection_power hf hp))⟩)
  by_cases hi : e.PitDiffers
  · exact .inr (.inr ⟨hf, hp, hi, Option.some.inj (h.symm.trans (trCorrection_pit hf hp hi))⟩)
  · cases h.symm.trans (trCorrection_none hf hp hi)

/-- No correction means no difference. -/
theorem trCorrection_eq_none (h : trCorrection c e = none) :
    ¬ e.FreqDiffers c ∧ ¬ e.PowerDiffers c ∧ ¬ e.PitDiffers := by
  have hf : ¬ e.FreqDiffers c := fun hf => nomatch h.symm.trans (trCorrection_freq hf)
  have hp : ¬ e.PowerDiffers c := fun hp => nomatch h.symm.trans (trCorrection_power hf hp)
  exact ⟨hf, hp, fun hi => nomatch h.symm.trans (trCorrection_pit hf hp hi)⟩

end Correction

/-! POLL. -/

section Poll
variable {s : State} {e e' : TrEngine} (hs : s.engine = .tramp e)
include hs

/-- With no RX bytes a TRAMP POLL is the step (46_host_ops.md R161); here it sends a frame. -/
theorem exec_poll_nil_sends {f : List Byte} (h : trStep s.cfg s.now e = (e', some f)) :
    exec (.poll []) s = .next { s with
      engine := .tramp e', tx := s.tx ++ [.group (0x00 :: f), .flush], result := some ⟨true, 0⟩ } :=
  execPoll_tramp hs (trPoll_eq_ok.2 ⟨e, rfl, h.symm⟩)

theorem exec_poll_nil_sends_query {code : Byte} (h : trStep s.cfg s.now e = (e', some (trFrame code 0))) :
    exec (.poll []) s = .next { s with
      engine := .tramp e'
      tx := s.tx ++ [.group [0, 0x0F, code, 0, 0, 0, 0, 0, 0, 0, 0, 0, 0, 0, 0, code, 0], .flush]
      result := some ⟨true, 0⟩ } := by
  rw [exec_poll_nil_sends hs h, trFrame_query]

theorem exec_poll_nil_quiet (h : trStep s.cfg s.now e = (e', none)) :
    exec (.poll []) s = .next { s with engine := .tramp e', result := some ⟨true, 0⟩ } :=
  execPoll_tramp hs (trPoll_eq_ok.2 ⟨e, rfl, h.symm⟩)

/-- Before the period has passed a POLL gives its result and changes nothing else. -/
theorem exec_poll_nil_waiting {p : Nat} (hp : e.waitPeriod s.cfg = p)
    (h : ¬ ∀ t, e.lastReq = some t → p ≤ elapsed s.cfg s.now t) :
    exec (.poll []) s = .next { s with result := some ⟨true, 0⟩ } := by
  rw [exec_poll_nil_quiet hs (trStep_waiting (mt due_iff.1 (hp ▸ h))), ← hs]

end Poll

/-- Settles O47: one equation of the step per state whose period has passed, and one for a period that has not. -/
theorem trampStepOutsideMonitor : Obligations.TrampStepOutsideMonitor := by
  intro s e hs waited sent
  refine ⟨fun hst hw => ?offline, fun hst hw => ?init, fun hst hw => ?waitInit, fun hst hw => ?monTemp,
    fun hst hw => ?config, fun hst hw => ?waitOnline⟩
  case offline => exact exec_poll_nil_sends_query hs (trStep_offline hst (due_iff.2 hw))
  case init => exact exec_poll_nil_sends_query hs (trStep_init hst (due_iff.2 hw))
  case waitInit => exact exec_poll_nil_waiting hs (TrEngine.waitPeriod_offline_or_init hst s.cfg) hw
  case monTemp => exact exec_poll_nil_sends_query hs (trStep_monTemp hst (due_iff.2 hw))
  case config => exact exec_poll_nil_sends_query hs (trStep_config hst (due_iff.2 hw))
  case waitOnline => exact exec_poll_nil_waiting hs (TrEngine.waitPeriod_online hst s.cfg) hw

/-- Settles O48: the check's four outcomes and the empty budget; without a correction the status query is sent when its
second has passed. -/
theorem trampMonitorConverges : Obligations.TrampMonitorConverges := by
  intro s e hs hst hw locked freqDiffers powerDiffers pitDiffers corrected polled
  have hstep : trStep s.cfg s.now e = trMonitor s.cfg s.now e := trStep_monitor hst (due_iff.2 hw)
  have hcorrected : ∀ f, 0 < e.retry → trCorrection s.cfg e = some f →
      exec (.poll []) s = .next (corrected f) := fun f hr hf =>
    exec_poll_nil_sends hs (hstep.trans (trMonitor_corrects hr hf))
  have hpolled : ∀ r, trMonitor s.cfg s.now e = trMonitorPoll s.cfg s.now { e with retry := r } →
      exec (.poll []) s = .next (polled r) := by
    intro r hr
    by_cases hd : ∀ t, e.lastStatus = some t → 1000 ≤ elapsed s.cfg s.now t
    · rw [show polled r = _ from if_pos hd]
      exact exec_poll_nil_sends hs (hstep.trans (hr.trans (trMonitorPoll_due (due_iff.2 hd))))
    · rw [show polled r = _ from if_neg hd]
      exact exec_poll_nil_quiet hs (hstep.trans (hr.trans (trMonitorPoll_waiting (mt due_iff.1 hd))))
  exact ⟨fun hr hf => hcorrected _ hr (trCorrection_freq hf),
    fun hr hf hp => hcorrected _ hr (trCorrection_power hf hp),
    fun hr hf hp hi => hcorrected _ hr (trCorrection_pit hf hp hi),
    fun hr hf hp hi => hpolled 20 (trMonitor_converged hr (trCorrection_none hf hp hi)),
    fun hr => hpolled 0 (trMonitor_exhausted hr)⟩

end Sys2Proof.Machine
end

section
/-! PROOFS. The TRAMP setters (45_tramp_engine.md R150 to R153): a write of frequency or power leaves unless race-locked,
a write of the pit mode always leaves, and SET_BANDCH fails. -/

namespace Sys2Proof.Machine

section Write
variable {c : Config} {now : Nat} {e : TrEngine}

theorem trWrite_of_locked (f : List Byte) (h : e.Locked c) : trWrite c now f e = (e, none) :=
  if_pos (raceLocked_iff.2 h)

theorem trWrite_of_not_locked (f : List Byte) (h : ¬ e.Locked c) :
    trWrite c now f e = ({ e with lastReq := some now }, some f) :=
  if_neg (mt raceLocked_iff.1 h)

theorem trSetFrequency_of_not_inRange {v : Half} (h : ¬ (5000 ≤ v.toNat ∧ v.toNat ≤ 5999)) :
    trSetFrequency c now v e = none :=
  if_neg (mt freqInRange_iff.1 h)

theorem trSetFrequency_of_inRange {v : Half} (h : 5000 ≤ v.toNat ∧ v.toNat ≤ 5999) : trSetFrequency c now v e =
    some (trWrite c now (trSetFrequencyFrame v) { e with desFreq := v, retry := 20 }) :=
  if_pos (freqInRange_iff.2 h)

end Write

/-- An accepted setter that sends the frame of a command, its parameter low byte first (44_tramp_frames.md R135). -/
theorem finishTrSetter_sends {r : TrEngine × Option (List Byte)} {e' : TrEngine} {code : Byte} {p : Half} {hi lo : Byte}
    (s : State) (hp : p.toNat = hi.toNat * 256 + lo.toNat) (hr : r = (e', some (trFrame code p))) :
    finishTrSetter (some r) s = .next { s with
      engine := .tramp e'
      tx := s.tx ++ [.group [0, 0x0F, code, lo, hi, 0, 0, 0, 0, 0, 0, 0, 0, 0, 0, code + lo + hi, 0], .flush]
      result := some ⟨true, 0⟩ } := by
  rw [hr, trFrame_eq hp]
  rfl

theorem finishTrSetter_quiet {r : TrEngine × Option (List Byte)} {e' : TrEngine} (s : State) (hr : r = (e', none)) :
    finishTrSetter (some r) s = .next { s with engine := .tramp e', result := some ⟨true, 0⟩ } := by
  rw [hr]
  rfl

/-- Settles O49: the range decides whether SET_FREQ is accepted, and the race lock whether an accepted write leaves. -/
theorem trampSetFreqAndPower : Obligations.TrampSetFreqAndPower := by
  intro s e v hi lo hs hv locked sent
  have hpower : exec (.setPower v) s =
      finishTrSetter (some (trWrite s.cfg s.now (trSetPowerFrame v) { e with desPower := v, retry := 20 })) s :=
    execSetPower_tramp hs
  have hfreq : 5000 ≤ v.toNat → v.toNat ≤ 5999 → exec (.setFreq v) s =
      finishTrSetter (some (trWrite s.cfg s.now (trSetFrequencyFrame v) { e with desFreq := v, retry := 20 })) s :=
    fun hmin hmax => (execSetFreq_tramp hs).trans (by rw [trSetFrequency_of_inRange ⟨hmin, hmax⟩])
  refine ⟨fun hout => ?refused, fun hmin hmax hl => ?freq, fun hmin hmax hl => ?freqLocked, fun hl => ?power,
    fun hl => ?powerLocked⟩
  case refused =>
    refine (execSetFreq_tramp hs).trans ?_
    rw [trSetFrequency_of_not_inRange (by omega)]
    rfl
  case freq => exact (hfreq hmin hmax).trans (finishTrSetter_sends s hv (trWrite_of_not_locked _ hl))
  case freqLocked => exact (hfreq hmin hmax).trans (finishTrSetter_quiet s (trWrite_of_locked _ hl))
  case power => exact hpower.trans (finishTrSetter_sends s hv (trWrite_of_not_locked _ hl))
  case powerLocked => exact hpower.trans (finishTrSetter_quiet s (trWrite_of_locked _ hl))

/-- Settles O50: SET_PIT sends the parameter of its pit mode without asking for the race lock. -/
theorem trampSetPitAndBandCh : Obligations.TrampSetPitAndBandCh := by
  intro s e on hi lo band channel hs hp
  exact ⟨(execSetPit_tramp hs).trans (finishTrSetter_sends (p := trPitParam s.cfg on) s hp rfl),
    execSetBandCh_tramp hs⟩

end Sys2Proof.Machine
end

section
/-! PROOFS. What the TRAMP step keeps whatever is received (45_tramp_engine.md R146, R148): received bytes touch neither
the retry budget nor the stamp of the last frame and leave an online engine online, so the spacing of frames and the
budget are matters of the step after them. -/

namespace Sys2Proof.Machine

/-! The receiver. -/

/-- What received bytes leave of an engine: its budget, and that it is online. -/
structure TrRxKeeps (e e' : TrEngine) : Prop where
  retry : e'.retry = e.retry
  online : e.Online → e'.Online

theorem TrRxKeeps.refl (e : TrEngine) : TrRxKeeps e e := ⟨rfl, id⟩

theorem TrRxKeeps.trans {a b d : TrEngine} (h : TrRxKeeps a b) (h' : TrRxKeeps b d) : TrRxKeeps a d :=
  ⟨h'.retry.trans h.retry, h'.online ∘ h.online⟩

/-- A reset reply moves an engine out of `Offline` only (44_tramp_frames.md R142). -/
theorem trRespReset_keeps (mn mx mp : Half) (e : TrEngine) : TrRxKeeps e (trRespReset mn mx mp e) := by
  unfold trRespReset
  split
  · exact .refl e
  · refine ⟨rfl, fun h => ?_⟩
    have hs : e.state ≠ .offline := by rcases h with hs | hs | hs <;> simp [hs]
    simpa [TrEngine.Online, hs] using h

/-- A status reply moves an engine out of `Init` only (R143). -/
theorem trRespStatus_keeps (freq power : Half) (ctrl : Byte) (pit : Bool) (act : Half) (e : TrEngine) :
    TrRxKeeps e (trRespStatus freq power ctrl pit act e) := by
  refine ⟨rfl, fun h => ?_⟩
  have hs : e.state ≠ .init := by rcases h with hs | hs | hs <;> simp [hs]
  simpa [trRespStatus, TrEngine.Online, hs] using h

theorem trRespTemp_keeps (t : Half) (e : TrEngine) : TrRxKeeps e (trRespTemp t e) := by
  unfold trRespTemp
  split
  · exact ⟨rfl, id⟩
  · exact .refl e

theorem trRxByte_keeps {c : Config} {d : Byte} {e e' : TrEngine} (h : trRxByte c d e = .ok e') : TrRxKeeps e e' :=
  trRxByte_relates (R := TrRxKeeps) (fun _ _ _ _ _ => ⟨rfl, id⟩) (fun e mn mx mp => trRespReset_keeps mn mx mp e)
    (fun e freq power ctrl pit act => trRespStatus_keeps freq power ctrl pit act e)
    (fun e t => trRespTemp_keeps t e) (fun _ _ _ => .trans) h

theorem trRxList_rxKeeps {c : Config} {ds : List Byte} {e e' : TrEngine} (h : trRxList c ds e = .ok e') :
    TrRxKeeps e e' :=
  trRxList_keeps (P := TrRxKeeps e) (fun _ _ _ hp hx => hp.trans (trRxByte_keeps hx)) (.refl e) h

/-! POLL. -/

/-- A TRAMP POLL that answers is its received bytes, then the step, whose frame it sends. -/
theorem exec_poll_tramp_next {rx : List Byte} {s t : State} {e : TrEngine} (hs : s.engine = .tramp e)
    (h : exec (.poll rx) s = .next t) :
    ∃ e1 e' f, trRxList s.cfg rx e = .ok e1 ∧ trStep s.cfg s.now e1 = (e', f) ∧
      t = retOk (txSent f (setEngine (.tramp e') s)) := by
  rcases execPoll_next h with ⟨hn, -⟩ | ⟨_, _, _, hn, -, -⟩ | ⟨e0, e', f, hn, hp, rfl⟩
  · exact nomatch hs.symm.trans hn
  · exact nomatch hs.symm.trans hn
  · obtain rfl : e = e0 := Engine.tramp.inj (hs.symm.trans hn)
    obtain ⟨e1, h1, h2⟩ := trPoll_eq_ok.1 hp
    exact ⟨e1, e', f, h1, h2.symm, rfl⟩

/-- Settles O52: after the received bytes the engine is online with the same stamp, and before its period has passed
the step sends nothing. -/
theorem trampFramesAreSpaced : Obligations.TrampFramesAreSpaced := by
  intro s t e rx last hs hon hlast h
  obtain ⟨e1, e', f, h1, h2, rfl⟩ := exec_poll_tramp_next hs h
  have hreq : e1.lastReq = some last := (trRxList_stamps h1).1.trans hlast
  have hperiod : e1.waitPeriod s.cfg = 200 := TrEngine.waitPeriod_online ((trRxList_rxKeeps h1).online hon) s.cfg
  by_cases hd : due s.cfg s.now e1.lastReq (e1.waitPeriod s.cfg) = true
  · rw [hreq, hperiod] at hd
    exact .inr (due_some_iff.1 hd)
  · cases h2.symm.trans (trStep_waiting hd)
    exact .inl rfl

/-! The budget. -/

theorem trMonitorPoll_retry (c : Config) (now : Nat) (e : TrEngine) : (trMonitorPoll c now e).1.retry = e.retry := by
  rcases trMonitorPoll_cases c now e with ⟨-, h⟩ | ⟨-, h⟩ <;> rw [h]

/-- The step leaves the budget, or is the monitor's with budget left: then it sends a correction and takes one off, or
finds none to send and refills the budget. -/
theorem trStep_retry (c : Config) (now : Nat) (e : TrEngine) :
    (trStep c now e).1.retry = e.retry ∨
    (e.state = .monFreqPwrPit ∧ 0 < e.retry ∧
      ((∃ f, trCorrection c e = some f ∧ (trStep c now e).2 = some f ∧ (trStep c now e).1.retry = e.retry - 1) ∨
        (trCorrection c e = none ∧ (trStep c now e).1.retry = 20))) := by
  rcases trStep_cases c now e with ⟨-, -, h⟩ | ⟨-, -, h⟩ | ⟨hs, -, h⟩ | ⟨-, -, h⟩ | ⟨-, -, h⟩ | h <;> rw [h]
  · exact .inl rfl
  · exact .inl rfl
  · rcases trMonitor_cases c now e with ⟨f, hr, hf, hm⟩ | ⟨hr, hf, hm⟩ | ⟨-, hm⟩ <;> rw [hm]
    · exact .inr ⟨hs, hr, .inl ⟨f, hf, rfl, rfl⟩⟩
    · exact .inr ⟨hs, hr, .inr ⟨hf, trMonitorPoll_retry c now { e with retry := trMaxRetry }⟩⟩
    · exact .inl (trMonitorPoll_retry c now e)
  · exact .inl rfl
  · exact .inl rfl
  · exact .inl rfl

theorem trWrite_retry (c : Config) (now : Nat) (f : List Byte) (e : TrEngine) :
    (trWrite c now f e).1.retry = e.retry := by
  rcases trWrite_cases c now f e with ⟨-, h⟩ | ⟨-, h⟩ <;> rw [h]

section Setters
variable {c : Config} {now : Nat} {e e' : TrEngine} {f : Option (List Byte)}

theorem trSetFrequency_retry {v : Half} (h : trSetFrequency c now v e = some (e', f)) : e'.retry = 20 := by
  unfold trSetFrequency at h
  split at h
  · obtain ⟨rfl, -⟩ := Prod.ext_iff.1 (Option.some.inj h)
    exact trWrite_retry c now _ { e with desFreq := v, retry := trMaxRetry }
  · cases h

theorem trSetPower_retry {mw : Half} (h : trSetPower c now mw e = some (e', f)) : e'.retry = 20 := by
  obtain ⟨rfl, -⟩ := Prod.ext_iff.1 (Option.some.inj h)
  exact trWrite_retry c now _ { e with desPower := mw, retry := trMaxRetry }

theorem trSetPitMode_retry {on : Bool} (h : trSetPitMode c now on e = some (e', f)) : e'.retry = 20 := by
  obtain ⟨rfl, -⟩ := Prod.ext_iff.1 (Option.some.inj h)
  rfl

end Setters

/-- An accepted setter refills the budget, a refused one leaves it. -/
theorem exec_setter_retry {i : Instr} {sa : Config → SaEngine → Except Fault (Option SaEngine)}
    {tramp : Config → Nat → TrEngine → Option (TrEngine × Option (List Byte))} (hi : Setter i sa tramp) {s t : State}
    {e e' : TrEngine} (htr : ∀ e1 f, tramp s.cfg s.now e = some (e1, f) → e1.retry = 20) (hs : s.engine = .tramp e)
    (h : exec i s = .next t) (ht : t.engine = .tramp e') :
    e'.retry = if t.result = some ⟨true, 0⟩ then 20 else e.retry := by
  rcases finishTrSetter_next ((hi.tramp s e hs).symm.trans h) with ⟨-, rfl⟩ | ⟨e1, f, hf, rfl⟩
  · obtain rfl : e = e' := Engine.tramp.inj (hs.symm.trans ht)
    rw [retFail_result, if_neg (by simp)]
  · obtain rfl : e1 = e' := Engine.tramp.inj (by simpa using ht)
    rw [retOk_result, if_pos rfl]
    exact htr e1 f hf

/-- The step sends its correction with one off the budget, or refills the budget when nothing differs, or leaves it. -/
theorem exec_poll_retry {rx : List Byte} {s t : State} {e e' : TrEngine} (hs : s.engine = .tramp e)
    (h : exec (.poll rx) s = .next t) (ht : t.engine = .tramp e') :
    ∃ e1, trRxList s.cfg rx e = .ok e1 ∧ e1.retry = e.retry ∧
      (e'.retry = e.retry ∨
       (e1.state = .monFreqPwrPit ∧ e.retry = e'.retry + 1 ∧
         ∃ f, trCorrection s.cfg e1 = some f ∧ t.tx = s.tx ++ [.group (0x00 :: f), .flush]) ∨
       (e1.state = .monFreqPwrPit ∧ 0 < e.retry ∧ trCorrection s.cfg e1 = none ∧ e'.retry = 20)) := by
  obtain ⟨e1, e2, f, h1, h2, rfl⟩ := exec_poll_tramp_next hs h
  obtain rfl : e2 = e' := Engine.tramp.inj (by simpa using ht)
  have hkept : e1.retry = e.retry := (trRxList_rxKeeps h1).retry
  have hstep := trStep_retry s.cfg s.now e1
  rw [h2, hkept] at hstep
  refine ⟨e1, h1, hkept, ?_⟩
  rcases hstep with hsame | ⟨hst, hr, ⟨g, hg, hsent, hless⟩ | ⟨hnone, hfull⟩⟩
  · exact .inl hsame
  · obtain rfl : f = some g := hsent
    exact .inr (.inl ⟨hst, by dsimp only at hless; omega, g, hg, rfl⟩)
  · exact .inr (.inr ⟨hst, hr, hnone, hfull⟩)

/-- A TRAMP engine in the slot before and after has the same budget. -/
def KeepsBudget (s t : State) : Prop := ∀ e e', s.engine = .tramp e → t.engine = .tramp e' → e'.retry = e.retry

theorem KeepsBudget.of_engine_eq {s t : State} (h : t.engine = s.engine) : KeepsBudget s t := by
  intro e e' hs ht
  rw [Engine.tramp.inj (ht.symm.trans (h.trans hs))]

theorem KeepsBudget.of_query {s t : State} (h : ∃ ok data, t = ret ok data s) : KeepsBudget s t := by
  obtain ⟨ok, data, rfl⟩ := h
  exact .of_engine_eq rfl

theorem keepsBudget_of_buildSa {f : Option (List Byte)} {s t : State} (h : buildSa f s = .next t) :
    KeepsBudget s t := by
  rcases buildSa_next h with ⟨-, rfl⟩ | ⟨-, rfl⟩ <;> exact .of_engine_eq rfl

theorem keepsBudget_of_buildTr {f : Option (List Byte)} {s t : State} (h : buildTr f s = .next t) :
    KeepsBudget s t := by
  rcases buildTr_next h with ⟨-, rfl⟩ | ⟨-, rfl⟩ <;> exact .of_engine_eq rfl

/-- A SmartAudio reply finds no engine of its own (42_sa_frames.md). -/
theorem keepsBudget_of_onSa {r : SaEngine → Except Fault SaEngine} {s t : State} (h : onSa r s = .next t) :
    KeepsBudget s t := by
  rcases onSa_next h with ⟨-, rfl⟩ | ⟨_, _, hsa, -, -⟩
  · exact .of_engine_eq rfl
  · exact fun e _ hs => nomatch hsa.symm.trans hs

theorem keepsBudget_of_trReply {r : TrEngine → TrEngine} (hr : ∀ e, TrRxKeeps e (r e)) {s t : State}
    (h : onTr (fun e => .ok (r e)) s = .next t) : KeepsBudget s t := by
  intro e e' hs ht
  cases (onTr_rule (r := r) hs rfl).symm.trans h
  obtain rfl : r e = e' := Engine.tramp.inj ht
  exact (hr e).retry

/-- Only the three setters and POLL touch the budget of an engine that stays (45_tramp_engine.md R148). -/
theorem exec_keepsBudget {i : Instr} {s t : State} (hi : replacesEngine i = false)
    (hother : ∀ v on rx, i ≠ .setFreq v ∧ i ≠ .setPower v ∧ i ≠ .setPit on ∧ i ≠ .poll rx)
    (h : exec i s = .next t) : KeepsBudget s t := by
  cases i with
  | init present =>
    cases hi
    cases h
    exact .of_engine_eq rfl
  | poll rx => simp at hother
  | setFreq mhz => simp at hother
  | setPower mw => simp at hother
  | setPit enable => simp at hother
  | setBandCh band channel =>
    intro e e' hs
    cases (execSetBandCh_tramp hs).symm.trans h
    exact KeepsBudget.of_engine_eq (t := retFail s) rfl e e' hs
  | switchProtocol sel => cases hi
  | isReady => exact .of_query (execIsReady_next h)
  | protocolInUse | bandChToFreq | crc8 => cases h; exact .of_engine_eq rfl
  | trampChecksum f => exact .of_query (execTrampChecksum_next h)
  | regRead id => rcases execRegRead_next h with ⟨-, rfl⟩ | ⟨v, -, rfl⟩ <;> exact .of_engine_eq rfl
  | saValidate m => exact .of_query (execSaValidate_next h)
  | trampValidate f => exact .of_query (execTrampValidate_next h)
  | saGetSettings | saSetPower | saSetChannel | saSetFrequency | saSetMode => exact keepsBudget_of_buildSa h
  | saReplySettingsV1 | saReplySettingsV2 | saReplySettingsV21 | saReplySetPower | saReplySetChannel
  | saReplySetFrequency | saReplySetMode | saReplyOther => exact keepsBudget_of_onSa h
  | trResetQuery | trStatusQuery | trTempQuery | trSetFrequency | trSetPower | trSetActive =>
    exact keepsBudget_of_buildTr h
  | trReplyReset mn mx mp => exact keepsBudget_of_trReply (trRespReset_keeps mn mx mp) h
  | trReplyStatus freq power ctrl pit act =>
    exact keepsBudget_of_trReply (trRespStatus_keeps freq power ctrl pit act) h
  | trReplyTemp temp => exact keepsBudget_of_trReply (trRespTemp_keeps temp) h

/-- Settles O51: the setters, POLL with the outcome of its convergence check, and every other instruction. -/
theorem retryBudgetChanges : Obligations.RetryBudgetChanges := by
  intro i s t e e' hs hi h ht locked freqDiffers powerDiffers pitDiffers sent
  refine ⟨fun v on hset => ?setter, fun rx hpoll => ?poll, fun hother => exec_keepsBudget hi hother h e e' hs ht⟩
  case setter =>
    rcases hset with rfl | rfl | rfl
    · exact exec_setter_retry (setter_setFreq v) (fun _ _ => trSetFrequency_retry) hs h ht
    · exact exec_setter_retry (setter_setPower v) (fun _ _ => trSetPower_retry) hs h ht
    · exact exec_setter_retry (setter_setPit on) (fun _ _ => trSetPitMode_retry) hs h ht
  case poll =>
    subst hpoll
    obtain ⟨e1, h1, hkept, hsame | ⟨hst, hless, f, hf, hsent⟩ | ⟨hst, hr, hnone, hfull⟩⟩ := exec_poll_retry hs h ht
    · exact ⟨e1, h1, hkept, .inl hsame⟩
    · refine ⟨e1, h1, hkept, .inr (.inl ⟨hst, hless, ?_⟩)⟩
      rcases trCorrection_eq_some hf with ⟨hd, rfl⟩ | ⟨hnf, hd, rfl⟩ | ⟨hnf, hnp, hd, rfl⟩
      · exact .inl ⟨hd, hsent⟩
      · exact .inr (.inl ⟨hnf, hd, hsent⟩)
      · exact .inr (.inr ⟨hnf, hnp, hd, hsent⟩)
    · obtain ⟨hnf, hnp, hni⟩ := trCorrection_eq_none hnone
      exact ⟨e1, h1, hkept, .inr (.inr ⟨hst, hr, hnf, hnp, hni, hfull⟩)⟩

end Sys2Proof.Machine
end

section
/-! PROOFS. The host operations as a whole (46_host_ops.md R155, R158 to R166, R171): each answers with a result and a
failed one does nothing else; and what a step does with the word it is given (30_encoding.md R70, R79, R84). -/

namespace Sys2Proof.Machine

/-! Failing. -/

/-- The operation was accepted, or has failed and done nothing but say so (R155, R171). -/
inductive OkOrOnlyFails (s t : State) : Prop where
  | ok (data : Word) (h : t.result = some ⟨true, data⟩)
  | fails (h : t = retFail s)

theorem OkOrOnlyFails.result {s t : State} (h : OkOrOnlyFails s t) :
    ∃ r, t.result = some r ∧ (r.ok = false → t = { s with result := some ⟨false, 0⟩ }) := by
  cases h with
  | ok data h => exact ⟨_, h, nofun⟩
  | fails h => exact ⟨⟨false, 0⟩, by rw [h]; rfl, fun _ => h⟩

theorem execInit_okOrOnlyFails {present : Bool} {s t : State} (h : execInit present s = .next t) :
    OkOrOnlyFails s t := by
  cases present with
  | true => cases h; exact .ok 0 rfl
  | false => cases h; exact .fails rfl

theorem execPoll_okOrOnlyFails {rx : List Byte} {s t : State} (h : execPoll rx s = .next t) : OkOrOnlyFails s t := by
  rcases execPoll_next h with ⟨-, rfl⟩ | ⟨_, _, _, -, -, rfl⟩ | ⟨_, _, _, -, -, rfl⟩
  · exact .fails rfl
  · exact .ok 0 rfl
  · exact .ok 0 rfl

theorem execIsReady_okOrOnlyFails {s t : State} (h : execIsReady s = .next t) : OkOrOnlyFails s t := by
  cases hs : s.engine with
  | none => cases (execIsReady_none hs).symm.trans h; exact .fails rfl
  | sa e => cases (execIsReady_sa hs).symm.trans h; exact .ok _ rfl
  | tramp e => cases (execIsReady_tramp hs).symm.trans h; exact .ok _ rfl

theorem Setter.okOrOnlyFails {i : Instr} {sa : Config → SaEngine → Except Fault (Option SaEngine)}
    {tramp : Config → Nat → TrEngine → Option (TrEngine × Option (List Byte))} (hi : Setter i sa tramp) {s t : State}
    (h : exec i s = .next t) : OkOrOnlyFails s t := by
  cases hs : s.engine with
  | none => cases (hi.none s hs).symm.trans h; exact .fails rfl
  | sa e =>
    rcases finishSaSetter_next ((hi.sa s e hs).symm.trans h) with ⟨-, rfl⟩ | ⟨_, -, rfl⟩
    · exact .fails rfl
    · exact .ok 0 rfl
  | tramp e =>
    rcases finishTrSetter_next ((hi.tramp s e hs).symm.trans h) with ⟨-, rfl⟩ | ⟨_, _, -, rfl⟩
    · exact .fails rfl
    · exact .ok 0 rfl

theorem execRegRead_okOrOnlyFails {id : Byte} {s t : State} (h : execRegRead id s = .next t) : OkOrOnlyFails s t := by
  rcases execRegRead_next h with ⟨-, rfl⟩ | ⟨v, -, rfl⟩
  · exact .fails rfl
  · exact .ok v rfl

theorem execSaValidate_okOrOnlyFails {m : List Byte} {s t : State} (h : execSaValidate m s = .next t) :
    OkOrOnlyFails s t := by
  unfold execSaValidate at h
  split at h <;> cases h
  · exact .fails rfl
  · exact .ok _ rfl

theorem execTrampChecksum_okOrOnlyFails {f : List Byte} {s t : State} (h : execTrampChecksum f s = .next t) :
    OkOrOnlyFails s t := by
  unfold execTrampChecksum at h
  split at h <;> cases h
  · exact .ok _ rfl
  · exact .fails rfl

theorem execTrampValidate_okOrOnlyFails {f : List Byte} {s t : State} (h : execTrampValidate f s = .next t) :
    OkOrOnlyFails s t := by
  unfold execTrampValidate at h
  split at h <;> cases h
  · exact .ok _ rfl
  · exact .fails rfl

theorem exec_okOrOnlyFails {i : Instr} {s t : State} (hi : isHostOp i = true) (h : exec i s = .next t) :
    OkOrOnlyFails s t := by
  cases i with
  | init present => exact execInit_okOrOnlyFails h
  | poll rx => exact execPoll_okOrOnlyFails h
  | isReady => exact execIsReady_okOrOnlyFails h
  | setFreq mhz => exact (setter_setFreq mhz).okOrOnlyFails h
  | setPower mw => exact (setter_setPower mw).okOrOnlyFails h
  | setPit enable => exact (setter_setPit enable).okOrOnlyFails h
  | setBandCh band channel => exact (setter_setBandCh band channel).okOrOnlyFails h
  | protocolInUse | switchProtocol | bandChToFreq | crc8 => cases h; exact .ok _ rfl
  | trampChecksum f => exact execTrampChecksum_okOrOnlyFails h
  | regRead id => exact execRegRead_okOrOnlyFails h
  | saValidate m => exact execSaValidate_okOrOnlyFails h
  | trampValidate f => exact execTrampValidate_okOrOnlyFails h
  | _ => cases hi

/-- Settles O5: from the invariant no rule faults, and an operation that answers has been accepted or has only
failed. -/
theorem failedOperationChangesNothing : Obligations.FailedOperationChangesNothing :=
  fun i _ hi => ⟨fun hs => exec_proceeds hs i, fun _ h => (exec_okOrOnlyFails hi h).result⟩

/-- Settles O4: POLL, IS_READY and the setters look for the engine first. -/
theorem engineOperationsFailWithoutEngine : Obligations.EngineOperationsFailWithoutEngine := by
  intro s rx f mw on band channel hs
  simp only [List.forall_mem_cons]
  exact ⟨execPoll_none hs, execIsReady_none hs, (setter_setFreq f).none s hs, (setter_setPower mw).none s hs,
    (setter_setPit on).none s hs, (setter_setBandCh band channel).none s hs, nofun⟩

/-! Creating and discarding the engine. -/

theorem createEngine_sa {s : State} (hp : s.proto = .sa) :
    createEngine s = txConfigure saBaud 8 2 (setEngine (.sa (freshSa s.cfg)) s) := by
  simp only [createEngine, hp]

theorem createEngine_tramp {s : State} (hp : s.proto = .tramp) :
    createEngine s = txConfigure trBaud 8 1 (setEngine (.tramp freshTr) s) := by
  simp only [createEngine, hp]

theorem exec_init_true (s : State) : exec (.init true) s = .next (retOk (createEngine s)) := rfl

/-- Settles O2: the fresh engines are the model's, with the slots of the fresh queue as they are. -/
theorem initCreatesFreshEngine : Obligations.InitCreatesFreshEngine := by
  refine fun s => ⟨rfl, fun hp => ⟨freshQueue.slots, rfl, ?sa⟩, fun hp => ?tramp⟩
  case sa => rw [exec_init_true, createEngine_sa hp]; rfl
  case tramp => rw [exec_init_true, createEngine_tramp hp]; rfl

theorem protoCode_eq_ite (p : Proto) : protoCode p = if p = .tramp then 1 else 0 := by
  cases p <;> rfl

theorem exec_protocolInUse (s : State) : exec .protocolInUse s = .next (ret true (protoCode s.proto) s) := rfl

/-- Settles O3: the state after SWITCH_PROTOCOL has no engine and the new protocol, and the two queries read these. -/
theorem switchProtocolDiscardsEngine : Obligations.SwitchProtocolDiscardsEngine := by
  refine fun s p => ⟨rfl, fun t h => ?_⟩
  have hnone : t.engine = .none := by cases h; rfl
  have hproto : t.proto = p := by cases h; rfl
  have hcode : protoCode t.proto = if p = .tramp then 1 else 0 := by rw [protoCode_eq_ite, hproto]
  rw [← hcode]
  exact ⟨execIsReady_none hnone, exec_protocolInUse t⟩

/-- Settles O8: PROTOCOL_IN_USE gives the code of the protocol, IS_READY the flag of the engine in the slot. -/
theorem controllerQueriesAnswer : Obligations.ControllerQueriesAnswer := by
  refine fun s => ⟨exec_protocolInUse s, execIsReady_none, fun e hs => ?_, fun e hs => execIsReady_tramp hs⟩
  have hflag : flagWord (saReady e) = if e.phase = .done ∧ e.version ≠ .unknown then 1 else 0 := by
    simp only [flagWord, saReady_iff]
  rw [← hflag]
  exact execIsReady_sa hs

/-! What a step does with its word. -/

section Word
variable {s : State} {x : Stimulus} {rest : List Stimulus} (hin : s.input = x :: rest)
include hin

theorem step_of_decoded {i : Instr} (hd : decode s.cfg x.word = .ok i) :
    step s = exec i (takeStimulus x.now rest s) := by
  simp only [step, fetch, hin, hd]

theorem step_of_rejected {w : InWord} {err : DecodeError} (hw : x.word = w) (hd : decode s.cfg x.word = .error err) :
    step s = rejectWord w (takeStimulus x.now rest s) := by
  subst hw
  simp only [step, fetch, hin, hd]

end Word

/-- Settles O7: a word that is no frame goes to the receiver or the builder of its unit, which look for the engine of
their own protocol. -/
theorem stepRunsDecodedInstruction : Obligations.StepRunsDecodedInstruction := by
  refine ⟨fun s x rest hin => ⟨?instruction, ?saReply, ?trReply, ?saRequest, ?trRequest, ?noSa, ?noTramp⟩,
    fun s => step_of_no_input⟩
  case instruction => exact fun i hd => step_of_decoded hin hd
  case saReply => exact fun f err e e' hw hd hs he => (step_of_rejected hin hw hd).trans (onSa_of_ok hs he)
  case trReply => exact fun f err e e' hw hd hs he => (step_of_rejected hin hw hd).trans (onTr_of_ok hs he)
  case saRequest => exact fun f err hw hd ⟨e, hs⟩ => (step_of_rejected hin hw hd).trans (buildSa_of_sa (e := e) hs)
  case trRequest => exact fun f err hw hd ⟨e, hs⟩ => (step_of_rejected hin hw hd).trans (buildTr_of_tramp (e := e) hs)
  case noSa =>
    rintro f err (hw | hw) hd hs
    · exact (step_of_rejected hin hw hd).trans (buildSa_of_not_sa hs)
    · exact (step_of_rejected hin hw hd).trans (onSa_of_not_sa hs)
  case noTramp =>
    rintro f err (hw | hw) hd hs
    · exact (step_of_rejected hin hw hd).trans (buildTr_of_not_tramp hs)
    · exact (step_of_rejected hin hw hd).trans (onTr_of_not_tramp hs)

end Sys2Proof.Machine
end

section
/-! PROOFS. A split RX list (70_reset_and_hazards.md R192): each receiver folds its byte rule over the list, so all that it
carries from one list to the next stands in the engine; and a POLL has received its whole list before it acts
(46_host_ops.md R161, 20_memory.md R65). -/

namespace Sys2Proof.Machine

/-! Receiving as a fold. -/

theorem saRxList_eq_foldlM (c : Config) (ds : List Byte) (e : SaEngine) :
    saRxList c ds e = ds.foldlM (fun e d => saRxByte c d e) e := by
  induction ds generalizing e with
  | nil => rfl
  | cons d ds ih => simp only [saRxList, List.foldlM_cons, ih]

theorem trRxList_eq_foldlM (c : Config) (ds : List Byte) (e : TrEngine) :
    trRxList c ds e = ds.foldlM (fun e d => trRxByte c d e) e := by
  induction ds generalizing e with
  | nil => rfl
  | cons d ds ih => simp only [trRxList, List.foldlM_cons, ih]

theorem saRxList_append (c : Config) (a b : List Byte) (e : SaEngine) :
    saRxList c (a ++ b) e = saRxList c a e >>= saRxList c b := by
  rw [saRxList_eq_foldlM, List.foldlM_append, ← saRxList_eq_foldlM]
  exact bind_congr fun e₁ => (saRxList_eq_foldlM c b e₁).symm

theorem trRxList_append (c : Config) (a b : List Byte) (e : TrEngine) :
    trRxList c (a ++ b) e = trRxList c a e >>= trRxList c b := by
  rw [trRxList_eq_foldlM, List.foldlM_append, ← trRxList_eq_foldlM]
  exact bind_congr fun e₁ => (trRxList_eq_foldlM c b e₁).symm

/-! POLL after its bytes. -/

theorem saPoll_of_received {c : Config} {rx : List Byte} {e e' : SaEngine} (h : saRxList c rx e = .ok e') (now : Nat) :
    saPoll c now rx e = saPoll c now [] e' := by
  simp only [saPoll, h, saRxList, ok_bind]

theorem trPoll_of_received {c : Config} {rx : List Byte} {e e' : TrEngine} (h : trRxList c rx e = .ok e') (now : Nat) :
    trPoll c now rx e = trPoll c now [] e' := by
  simp only [trPoll, h, trRxList, ok_bind]

/-- Settles O34: a fold over two lists is one fold and then the other; and the two POLLs of a well-formed engine, which
answer, have one answer. -/
theorem receiversResumeSplitFrames : Obligations.ReceiversResumeSplitFrames := by
  refine ⟨saRxList_append, trRxList_append, fun s e rx hc hs he => ?smartAudio, fun s e rx hs he => ?tramp⟩
  case smartAudio =>
    obtain ⟨e', hrx⟩ := saRxList_answers rx he
    obtain ⟨⟨e₁, f⟩, hpoll⟩ := saPoll_answers hc he s.now rx
    have hrest : saPoll s.cfg s.now [] e' = .ok (e₁, f) := (saPoll_of_received hrx s.now).symm.trans hpoll
    exact ⟨e', _, hrx, execPoll_sa hs hpoll, execPoll_sa (s := setEngine (.sa e') s) rfl hrest⟩
  case tramp =>
    obtain ⟨e', hrx⟩ := trRxList_answers rx he
    obtain ⟨⟨e₁, f⟩, hpoll⟩ := trPoll_answers he s.now rx
    have hrest : trPoll s.cfg s.now [] e' = .ok (e₁, f) := (trPoll_of_received hrx s.now).symm.trans hpoll
    exact ⟨e', _, hrx, execPoll_tramp hs hpoll, execPoll_tramp (s := setEngine (.tramp e') s) rfl hrest⟩

end Sys2Proof.Machine
end
